-- ==== Sys2Proof/Config.lean ====
section
/-! DEFINITION. The parameters the spec fixes (R7, D21: unaudited literals, log 13), the parameters it leaves
open with their defaults (R8, D20), the range-mapper's configuration (R100), and the free values. The types of State, of
operations and of events, and every meaning, read these names; `abbrev`, so that a proof sees the number. -/

namespace Sys2Proof

/-- BYTE_W (R7). -/
abbrev Config.byteW : Nat := 8
/-- MARKER, the frame-start byte (R7, R71). -/
def Config.marker : BitVec Config.byteW := 0xC0#8
/-- FRAME_LEN, bytes in a frame body (R7). -/
abbrev Config.frameLen : Nat := 18
/-- N_KNOB (R7). -/
abbrev Config.nKnob : Nat := 6
/-- KNOB_BASE, first slot of the knob section (R7). -/
abbrev Config.knobBase : Nat := 0
/-- KNOB_SHIFT, left shift of the second byte of a pair (R7, R76). -/
abbrev Config.knobShift : Nat := 7
/-- N_ROW (R7). -/
abbrev Config.nRow : Nat := 6
/-- ROW_BASE, first slot of the row section (R7). -/
abbrev Config.rowBase : Nat := 12
/-- ROW_BITS, flags per row (R7). -/
abbrev Config.rowBits : Nat := 6
/-- ROW_MASKS, tested in this order (R7, R80). -/
def Config.rowMasks : List (BitVec Config.byteW) := [32#8, 16#8, 8#8, 4#8, 2#8, 1#8]
/-- EVENTS_PER_FRAME (R7, R120). -/
abbrev Config.eventsPerFrame : Nat := 12

/-- The index of the last slot, the one CAPTL writes (R25, R167): FRAME_LEN - 1. -/
abbrev Config.lastSlot : Nat := Config.frameLen - 1

/-- RAW_W (R8, R78). -/
abbrev Config.rawW : Nat := 15
/-- VAL_W (R8, D7). -/
abbrev Config.valW : Nat := 15
/-- VAL_F, fraction bits of the knob value (R8, D7). -/
abbrev Config.valF : Nat := 10
/-- VAL_SIGNED (R8, D7). -/
def Config.valSigned : Bool := false
/-- EV_W (R8, D5). -/
abbrev Config.evW : Nat := 19
/-- PHASE_W, the width of `phase` and of `st_phase` (R8, R20, R41). -/
abbrev Config.phaseW : Nat := 3
/-- CNT_W, the width of `cnt` (R8, R20). -/
abbrev Config.cntW : Nat := 5
/-- EIDX_W, the width of `eidx` (R8, R20). -/
abbrev Config.eidxW : Nat := 4
/-- CAUSE_W, the width of `cause` and of `st_cause` (R8, R20, R41). -/
abbrev Config.causeW : Nat := 2

/-- RXQ_DEPTH: OPEN, default unbounded (R8, D20, U8). `some d` would bound the draw of a FLUSH by `d` (R46). -/
def Config.rxqDepth : Option Nat := none
/-- RX_LOSSY: OPEN; a model that wants to be safe admits loss (R8, R44, D20, U8). -/
def Config.rxLossy : Bool := true

/-- ScalerConfig (R13, R100): the interval ends and the number format of the output (R103). The ends are exact
rationals, written as integers over one common denominator `den` (log 14). -/
structure ScalerConfig where
  srcBeg : Int
  srcEnd : Int
  dstBeg : Int
  dstEnd : Int
  den : Nat := 1
  valF : Nat
  valW : Nat
  signed : Bool
deriving DecidableEq, Repr

/-- The one instance: source interval 0..1024, destination interval 0..1 (R7, R100, R104). -/
def Config.scaler : ScalerConfig :=
  { srcBeg := 0, srcEnd := 1024, dstBeg := 0, dstEnd := 1
    valF := Config.valF, valW := Config.valW, signed := Config.valSigned }

/-- Free value: what slot `i` of the frame buffer holds after the RESET performed at edge `n`
(R32, R190: "its contents after reset are unspecified"; log 2). -/
opaque Config.freeSlot (n : Nat) (i : Fin Config.frameLen) : BitVec Config.byteW

/-- Free value: the draw `q` of a FLUSH at edge `n` when the script of inputs has run out (R46, R68, U7; log 4). -/
opaque Config.freeDrop (n : Nat) : Nat

/-- Free value: `ev_word` at edge `n` while `ev_valid = 0` (R49, U12; log 9). -/
opaque Config.freeEvWord (n : Nat) : BitVec Config.evW

end Sys2Proof
end

