-- ==== Sys2Proof/Word.lean ====
section
/-! DEFINITION. The widths of the values the block moves, and the small closed types of the spec:
phases, halt causes, events. Rules R8, R10, R24, R27, R78, R82 of spec/. -/

namespace Sys2Proof

/-- A stream byte and a frame-buffer slot: 8 bits (R7 BYTE_W, R20). -/
abbrev Byte := BitVec Config.byteW

/-- A knob raw word and a knob value field: RAW_W = VAL_W = 15 bits (R8, R78). -/
abbrev RawWord := BitVec Config.rawW

/-- An event word: EV_W = 19 bits (R8, R82). -/
abbrev EvWord := BitVec Config.evW

/-- An index into the frame buffer, 0..17 (R11, R21, FRAME_LEN). -/
abbrev Slot := Fin Config.frameLen

/-- The index of an event among the twelve of a frame (R26, EVENTS_PER_FRAME). -/
abbrev EventIndex := Fin Config.eventsPerFrame

/-- The sequencer phase (R24). Encodings 5, 6 and 7 are unreachable and left out of the type (U13, log 12). -/
inductive Phase where
  | seeking
  | readingFrame
  | flush
  | dispatch
  | halted
deriving DecidableEq, Repr

/-- Why the block is halted (R27). Encoding 3 is unused and left out of the type (U13, log 12). -/
inductive Cause where
  | none
  | stopped
  | transportRead
deriving DecidableEq, Repr

/-- What an event word carries (R82): a KNOB event (knob id and value field) or a BAY event
(output id and the six connection bits). The ids are 0..5. -/
inductive Event where
  | knob (id : Fin Config.nKnob) (val : RawWord)
  | bay (id : Fin Config.nRow) (conn : BitVec Config.rowBits)
deriving DecidableEq, Repr

end Sys2Proof
end

