-- ==== Sys2Proof/Syntax.lean ====
section
/-! DEFINITION. The operations of the block: one constructor per row of spec/opcode_table.json (R3, R92). -/

namespace Sys2Proof

/-- An operation, with the operands its printed form names (R90): the byte taken, the slot written, the draw.
STOP is the second half of EMITB0 and is never performed alone (R191). -/
inductive Instr where
  /-- RESET (R190). -/
  | reset
  /-- SYNC: the byte taken is the marker (R165). -/
  | sync
  /-- SKIP b: the byte taken (R164). -/
  | skip (b : Byte)
  /-- CAPT s b: the slot written, 0..16, and the byte taken (R166). -/
  | capt (slot : Fin Config.lastSlot) (b : Byte)
  /-- CAPTL b: the byte taken; the slot is 17 (R167). -/
  | captl (b : Byte)
  /-- RXERR (R209). -/
  | rxerr
  /-- FLUSH q: the number of bytes the transport drops (R168, R46). -/
  | flush (q : Nat)
  /-- EMITK5 (R131). -/
  | emitk5
  /-- EMITK4 (R132). -/
  | emitk4
  /-- EMITK3 (R133). -/
  | emitk3
  /-- EMITK2 (R134). -/
  | emitk2
  /-- EMITK1 (R135). -/
  | emitk1
  /-- EMITK0 (R136). -/
  | emitk0
  /-- EMITB5 (R137). -/
  | emitb5
  /-- EMITB4 (R138). -/
  | emitb4
  /-- EMITB3 (R139). -/
  | emitb3
  /-- EMITB2 (R140). -/
  | emitb2
  /-- EMITB1 (R141). -/
  | emitb1
  /-- EMITB0 (R142). -/
  | emitb0
  /-- STOP (R191). -/
  | stop
  /-- WAIT (R192). -/
  | wait
deriving DecidableEq, Repr

end Sys2Proof
end

