-- ==== Sys2Proof/WellFormed.lean ====
section
/-! DEFINITION. Which operations an edge can perform on its own: the operands SKIP and FLUSH may have, and STOP,
which is never performed alone. The slot of CAPT is bounded by its type. -/

namespace Sys2Proof

/-- The draw of a FLUSH: any `q`, at most RXQ_DEPTH where that parameter has a value (R46). -/
def drawFits (depth : Option Nat) (q : Nat) : Bool :=
  match depth with
  | none => true
  | some d => q ≤ d

/-- The checks, for a given RXQ_DEPTH: SKIP takes every byte but the marker (R164); a draw fits the queue (R46);
STOP "is not performed alone" (R191). -/
def Instr.wfWith (depth : Option Nat) : Instr → Bool
  | .skip b => b != Config.marker
  | .flush q => drawFits depth q
  | .stop => false
  | .reset | .sync | .capt _ _ | .captl _ | .rxerr | .wait => true
  | .emitk5 | .emitk4 | .emitk3 | .emitk2 | .emitk1 | .emitk0 => true
  | .emitb5 | .emitb4 | .emitb3 | .emitb2 | .emitb1 | .emitb0 => true

/-- Well-formed for the block's RXQ_DEPTH (log 4). -/
def Instr.wf (i : Instr) : Bool := i.wfWith Config.rxqDepth

end Sys2Proof
end

