-- ==== Sys2Proof/Decode.lean ====
section
/-! DEFINITION. Which operation an edge performs: the decoder of the input side (R74, R75), the decoder of event
words (R82 to R85), and after them the encoders: the condition that selects an operation, the word of an event,
the frame of a snapshot (R91). -/

namespace Sys2Proof

/-! ## What is decoded -/

/-- What R74 looks at: the sequencer position and the inputs at the edge. `rxOffer` is `rx_valid` and `rx_data` in one:
`none` is `rx_valid = 0`, and then `rx_data` is not looked at (U12). `drop` is the transport's draw (R46). -/
structure Fetch where
  phase : Phase
  cnt : Slot
  eidx : EventIndex
  rst : Bool
  rxOffer : Option Byte
  rxErr : Bool
  evReady : Bool
  stopReq : Bool
  drop : Nat
deriving DecidableEq, Repr

/-- Why a word decodes to nothing. -/
inductive DecodeReject where
  /-- A byte is offered in a phase in which `rx_ready = 0` (R43). -/
  | byteNotTaken
  /-- An event word with id 6 or 7 (R87). -/
  | eventIdUnused
  /-- A BAY event word with a bit of 14:6 set (R87). -/
  | bayPayloadNotZero
deriving DecidableEq, Repr

/-! ## The decoder -/

/-- A byte taken while seeking: the marker test compares all 8 bits (R75, R161). -/
def decodeSeeking (b : Byte) : Instr :=
  if b = Config.marker then .sync else .skip b

/-- A byte taken while reading a frame: its value selects nothing, `cnt` alone does (R75, R162). -/
def decodeBody (cnt : Slot) (b : Byte) : Instr :=
  if h : cnt.val < Config.lastSlot then .capt ⟨cnt.val, h⟩ b else .captl b

/-- What an offered byte decodes to at a sequencer position (R75). -/
def decodeByte (phase : Phase) (cnt : Slot) (b : Byte) : Except DecodeReject Instr :=
  match phase with
  | .seeking => .ok (decodeSeeking b)
  | .readingFrame => .ok (decodeBody cnt b)
  | .flush => .error .byteNotTaken
  | .dispatch => .error .byteNotTaken
  | .halted => .error .byteNotTaken

/-- The EMIT operation whose index is `eidx` (R74 rows 11 to 23, R126). -/
def emitOf : EventIndex → Instr
  | 0 => .emitk5
  | 1 => .emitk4
  | 2 => .emitk3
  | 3 => .emitk2
  | 4 => .emitk1
  | 5 => .emitk0
  | 6 => .emitb5
  | 7 => .emitb4
  | 8 => .emitb3
  | 9 => .emitb2
  | 10 => .emitb1
  | 11 => .emitb0

/-- Nothing is offered while the block waits for a byte: the fault or WAIT (R74 rows 4, 5, 8, 9). -/
def decodeNoByte (rxErr : Bool) : Instr :=
  if rxErr then .rxerr else .wait

/-- The operation an edge performs (R74). Rows 22 and 23 both decode to EMITB0: in row 23 STOP is the second half of that
one operation (R142, R191; log 7). -/
def decode (f : Fetch) : Instr :=
  if f.rst then .reset
  else match f.phase with
    | .seeking =>
      match f.rxOffer with
      | some b => decodeSeeking b
      | none => decodeNoByte f.rxErr
    | .readingFrame =>
      match f.rxOffer with
      | some b => decodeBody f.cnt b
      | none => decodeNoByte f.rxErr
    | .flush => .flush f.drop
    | .dispatch => if f.evReady then emitOf f.eidx else .wait
    | .halted => .wait

/-- What an event word carries (R82, R85), rejecting by name the words the block never produces (R87). -/
def decodeEvent (w : EvWord) : Except DecodeReject Event :=
  if w.getLsbD 18 = false then
    if h : (w.extractLsb' 15 3).toNat < Config.nKnob then
      .ok (.knob ⟨(w.extractLsb' 15 3).toNat, h⟩ (w.extractLsb' 0 Config.rawW))
    else .error .eventIdUnused
  else if h : (w.extractLsb' 15 3).toNat < Config.nRow then
    if w.extractLsb' 6 9 = 0#9 then .ok (.bay ⟨(w.extractLsb' 15 3).toNat, h⟩ (w.extractLsb' 0 Config.rowBits))
    else .error .bayPayloadNotZero
  else .error .eventIdUnused

/-- The index of the event among the twelve of a frame (R126): the knobs first, ids
running backwards, so knob `n` has index `5 - n`; then the outputs, output `n` at index `11 - n`. -/
def Event.index : Event → EventIndex
  | .knob id _ => ⟨id.rev.val, Nat.lt_of_lt_of_le id.rev.isLt (by decide)⟩
  | .bay id _ => ⟨Config.nKnob + id.rev.val, Nat.lt_of_lt_of_le (Nat.add_lt_add_left id.rev.isLt Config.nKnob) (by decide)⟩

/-- The operation that produces an event word of this pattern (R85). -/
def Event.emitter (e : Event) : Instr := emitOf e.index

/-- `decodeEvent` and `Event.emitter` in one: the operation whose pattern of R85 a word has. -/
def decodeEventWord (w : EvWord) : Except DecodeReject Instr :=
  match decodeEvent w with
  | .ok e => .ok e.emitter
  | .error r => .error r

/-- The operation of a word of the table, by the number of bits the table gives its row: 8 bits are an input byte, met
where reset leaves the sequencer (SEEKING); 19 bits (24 in whole bytes) an event word; no bits are no byte offered, which
is WAIT. The rows that share the pattern of SKIP, and the rows that have no word, cannot be told by a word alone (log 15). -/
def decodeTableWord (nbits w : Nat) : Option Instr :=
  if nbits = Config.byteW ∧ w < 2 ^ Config.byteW then (decodeByte .seeking 0 (BitVec.ofNat Config.byteW w)).toOption
  else if (nbits = 24 ∨ nbits = 19) ∧ w < 2 ^ 19 then (decodeEventWord (BitVec.ofNat 19 w)).toOption
  else if nbits = 0 ∧ w = 0 then some .wait
  else none

/-! ## The selection table as the spec writes it -/

/-- One row of R74: its number, its condition on state and inputs, the operation it selects. -/
structure SelectRow where
  no : Nat
  holds : Fetch → Bool
  op : Fetch → Instr

/-- The byte on `rx_data`; only rows with `rx_valid = 1` use it. -/
def Fetch.byte (f : Fetch) : Byte := f.rxOffer.getD 0

/-- `rx_valid`. -/
def Fetch.rxValid (f : Fetch) : Bool := f.rxOffer.isSome

/-- The slot operand of CAPT: `cnt`, which is at most 16 where R74 row 6 selects it. -/
def Fetch.slot (f : Fetch) : Fin Config.lastSlot := ⟨min f.cnt.val 16, Nat.lt_of_le_of_lt (Nat.min_le_right _ _) (by decide)⟩

/-- Row `11 + e` of R74, for `e` in 0..10. -/
def emitRow (e : EventIndex) : SelectRow :=
  { no := 11 + e.val
    holds := fun f => f.phase = .dispatch && f.evReady && f.eidx = e
    op := fun _ => emitOf e }

/-- Rows 1 to 10 of R74. -/
def receiveRows : List SelectRow :=
  [ { no := 1, holds := fun f => f.rst, op := fun _ => .reset },
    { no := 2, holds := fun f => f.phase = .seeking && f.rxValid && f.byte != Config.marker, op := fun f => .skip f.byte },
    { no := 3, holds := fun f => f.phase = .seeking && f.rxValid && f.byte == Config.marker, op := fun _ => .sync },
    { no := 4, holds := fun f => f.phase = .seeking && !f.rxValid && f.rxErr, op := fun _ => .rxerr },
    { no := 5, holds := fun f => f.phase = .seeking && !f.rxValid && !f.rxErr, op := fun _ => .wait },
    { no := 6, holds := fun f => f.phase = .readingFrame && f.rxValid && f.cnt.val ≤ 16,
      op := fun f => .capt f.slot f.byte },
    { no := 7, holds := fun f => f.phase = .readingFrame && f.rxValid && f.cnt.val = 17, op := fun f => .captl f.byte },
    { no := 8, holds := fun f => f.phase = .readingFrame && !f.rxValid && f.rxErr, op := fun _ => .rxerr },
    { no := 9, holds := fun f => f.phase = .readingFrame && !f.rxValid && !f.rxErr, op := fun _ => .wait },
    { no := 10, holds := fun f => f.phase = .flush, op := fun f => .flush f.drop } ]

/-- Rows 22 to 25 of R74; row 23 is "EMITB0 then STOP, as one operation" (log 7). -/
def lastRows : List SelectRow :=
  [ { no := 22, holds := fun f => f.phase = .dispatch && f.evReady && f.eidx = 11 && !f.stopReq, op := fun _ => .emitb0 },
    { no := 23, holds := fun f => f.phase = .dispatch && f.evReady && f.eidx = 11 && f.stopReq, op := fun _ => .emitb0 },
    { no := 24, holds := fun f => f.phase = .dispatch && !f.evReady, op := fun _ => .wait },
    { no := 25, holds := fun f => f.phase = .halted, op := fun _ => .wait } ]

/-- R74, row by row. -/
def selectTable : List SelectRow :=
  receiveRows ++ [emitRow 0, emitRow 1, emitRow 2, emitRow 3, emitRow 4, emitRow 5, emitRow 6, emitRow 7, emitRow 8,
    emitRow 9, emitRow 10] ++ lastRows

/-- The operation of the first row whose condition holds. -/
def firstRow (f : Fetch) : List SelectRow → Option Instr
  | [] => none
  | r :: rs => if r.holds f then some (r.op f) else firstRow f rs

/-! ## The encoders -/

/-- A position with no input asserted. -/
def Fetch.quiet (phase : Phase) (cnt : Slot) (eidx : EventIndex) : Fetch :=
  { phase := phase, cnt := cnt, eidx := eidx, rst := false, rxOffer := none, rxErr := false, evReady := false,
    stopReq := false, drop := 0 }

/-- The position and inputs of the EMIT operation of index `e`. -/
def encodeEmit (e : EventIndex) : Fetch := { Fetch.quiet .dispatch 0 e with evReady := true }

/-- A condition of R74 that selects the operation: the first of its rows, with the operands where the row has them.
STOP's is row 23, whose operation is EMITB0 with STOP as its second half. -/
def encode : Instr → Fetch
  | .reset => { Fetch.quiet .seeking 0 0 with rst := true }
  | .sync => { Fetch.quiet .seeking 0 0 with rxOffer := some Config.marker }
  | .skip b => { Fetch.quiet .seeking 0 0 with rxOffer := some b }
  | .capt slot b => { Fetch.quiet .readingFrame slot.castSucc 0 with rxOffer := some b }
  | .captl b => { Fetch.quiet .readingFrame (Fin.last Config.lastSlot) 0 with rxOffer := some b }
  | .rxerr => { Fetch.quiet .seeking 0 0 with rxErr := true }
  | .flush q => { Fetch.quiet .flush 0 0 with drop := q }
  | .emitk5 => encodeEmit 0
  | .emitk4 => encodeEmit 1
  | .emitk3 => encodeEmit 2
  | .emitk2 => encodeEmit 3
  | .emitk1 => encodeEmit 4
  | .emitk0 => encodeEmit 5
  | .emitb5 => encodeEmit 6
  | .emitb4 => encodeEmit 7
  | .emitb3 => encodeEmit 8
  | .emitb2 => encodeEmit 9
  | .emitb1 => encodeEmit 10
  | .emitb0 => encodeEmit 11
  | .stop => { encodeEmit 11 with stopReq := true }
  | .wait => Fetch.quiet .seeking 0 0

/-- A KNOB event word: kind 0, id, the 15 value bits (R82, R83). -/
def knobWord (id : BitVec 3) (val : RawWord) : EvWord := 0#1 ++ id ++ val

/-- A BAY event word: kind 1, id, nine zero bits, the six connection bits (R82, R84). -/
def bayWord (id : BitVec 3) (conn : BitVec Config.rowBits) : EvWord := 1#1 ++ id ++ 0#9 ++ conn

/-- The word of an event (R82 to R84). -/
def Event.toWord : Event → EvWord
  | .knob id val => knobWord (BitVec.ofNat 3 id.val) val
  | .bay id conn => bayWord (BitVec.ofNat 3 id.val) conn

/-- FRAME(b0, ..., b17): the marker, then the body (R91, R72). -/
def frameBytes (body : List Byte) : List Byte := Config.marker :: body

/-- The two body bytes a 7-bit-clean device sends for a knob word: `k & 0x7F`, `k >> 7` (R91). -/
def pairOf (k : BitVec 14) : List Byte :=
  [(k.extractLsb' 0 7).setWidth Config.byteW, (k.extractLsb' 7 7).setWidth Config.byteW]

/-- The body of SNAP(k5, ..., k0 | r5, ..., r0) (R91): `k n` is knob `n`'s raw word, `r n` output `n`'s row. -/
def snapBody (k : Fin Config.nKnob → BitVec 14) (r : Fin Config.nRow → BitVec Config.rowBits) : List Byte :=
  pairOf (k 5) ++ pairOf (k 4) ++ pairOf (k 3) ++ pairOf (k 2) ++ pairOf (k 1) ++ pairOf (k 0) ++
    [(r 5).setWidth Config.byteW, (r 4).setWidth Config.byteW, (r 3).setWidth Config.byteW, (r 2).setWidth Config.byteW, (r 1).setWidth Config.byteW, (r 0).setWidth Config.byteW]

/-- SNAP: the 19 bytes (R91). -/
def snap (k : Fin Config.nKnob → BitVec 14) (r : Fin Config.nRow → BitVec Config.rowBits) : List Byte := frameBytes (snapBody k r)

end Sys2Proof
end

