-- ==== Sys2Proof/Machine/State.lean ====
section
/-! DEFINITION. The state: the block's five items (R20), what the outside world holds for it (R33, R53), and the
model's own records of the two streams. Plain data. -/

namespace Sys2Proof.Machine

/-- What the outside world does at one clock edge (R41, R52, R53): the levels of the inputs, and the draw of the transport.
`offer`: the transport offers the next byte of the receive stream, where there is one (`rx_valid`, R42).
`drop`: how many bytes the transport drops if this edge performs FLUSH (R46). -/
structure Edge where
  rst : Bool
  offer : Bool
  rxErr : Bool
  evReady : Bool
  stopReq : Bool
  drop : Nat
deriving DecidableEq, Repr

/-- What crossed the block's two ports since a reset: the consumed sequence `C` of R53, and the event words transferred,
each oldest first. The model's own record (log 10). -/
structure Run where
  taken : List Byte
  events : List EvWord
deriving DecidableEq, Repr

/-- Nothing has crossed the ports. -/
def Run.empty : Run := { taken := [], events := [] }

/-- The machine.
`fb`, `phase`, `cnt`, `eidx`, `cause`: the complete state of the block (R20, R21, R24 to R27).
`rx`: the bytes of the sent sequence not taken or dropped yet, next byte first (R40, R46, R53; log 3).
`inputs`: the coming edges, next edge first (log 5).
`run`, `past`: what crossed the ports since the last reset, and in each earlier run (log 10).
`draw`: which free values the coming edge uses (log 4). -/
structure State where
  fb : Vector Byte Config.frameLen
  phase : Phase
  cnt : Slot
  eidx : EventIndex
  cause : Cause
  rx : List Byte
  inputs : List Edge
  run : Run
  past : List Run
  draw : Nat
deriving DecidableEq, Repr

/-- Reasons the model stops with a fault: none. The block's one fault, TransportReadError, halts the block and is a next
state (R209, R210), so no operation ends in a fault of the model. Safe: nothing the block does is left out by it. -/
inductive Fault where
deriving DecidableEq, Repr

/-- Reasons the model refuses. -/
inductive Refusal where
  /-- Raised by an arm of `exec` whose operation has no meaning yet. No arm raises it now. Safe: the model stops. -/
  | notModelled (mnemonic : String)
deriving DecidableEq, Repr

/-- The machine right after reset (R32, R230): SEEKING, both counters 0, no cause. The spec gives `FB` no value; zero is the
model's choice (log 1). Nothing has been sent, no input is scripted (logs 3, 5, 6), nothing has crossed the ports. -/
def State.reset : State :=
  { fb := Vector.replicate Config.frameLen 0, phase := .seeking, cnt := 0, eidx := 0, cause := .none
    rx := [], inputs := [], run := Run.empty, past := [], draw := 0 }

end Sys2Proof.Machine
end

