-- ==== Sys2Proof/Machine/Ops.lean ====
section
/-! DEFINITION. The primitives of R11 and the shared operations: the inputs at an edge, RxTake, RxDiscard, EvPut, slot reads
and writes, the fault entry (R210) with the way back beside it (RESET, R190, R212), and the passing of an edge. -/

namespace Sys2Proof.Machine

/-- No input is asserted; the draw is free (R46, R68: never a fixed number; log 4). -/
def Edge.quiet (draw : Nat) : Edge :=
  { rst := false, offer := false, rxErr := false, evReady := false, stopReq := false, drop := Config.freeDrop draw }

/-- The inputs at the coming edge: the next of the script, or none asserted when the script has run out (log 5). -/
def State.edge (s : State) : Edge :=
  match s.inputs with
  | e :: _ => e
  | [] => Edge.quiet s.draw

/-- `rx_valid` and `rx_data`: the byte the transport offers at this edge (R42, R44: the next of the stream). -/
def State.rxOffer (s : State) : Option Byte :=
  if s.edge.offer then s.rx.head? else none

/-- What R74 looks at. -/
def State.fetch (s : State) : Fetch :=
  { phase := s.phase, cnt := s.cnt, eidx := s.eidx, rst := s.edge.rst, rxOffer := s.rxOffer, rxErr := s.edge.rxErr,
    evReady := s.edge.evReady, stopReq := s.edge.stopReq, drop := s.edge.drop }

/-- `RxTake()` of the byte `b`: it leaves the head of the transport's queue (R11, R42) and joins the consumed sequence (R53). -/
def State.rxTake (b : Byte) (s : State) : State :=
  { s with rx := s.rx.tail, run := { s.run with taken := s.run.taken ++ [b] } }

/-- `RxDiscard()` with the draw `q`: the transport drops the next `q` bytes of the sent sequence, whatever they are (R46). -/
def State.rxDiscard (q : Nat) (s : State) : State :=
  { s with rx := s.rx.drop q }

/-- `EvPut(w)`: the word joins the event stream (R11, R48, R51). -/
def State.evPut (w : EvWord) (s : State) : State :=
  { s with run := { s.run with events := s.run.events ++ [w] } }

/-- `FB[i]` (R11). -/
def State.slot (s : State) (i : Slot) : Byte := s.fb[i.val]

/-- `FB[i] <- b` (R11). -/
def State.setSlot (i : Slot) (b : Byte) (s : State) : State :=
  { s with fb := s.fb.set i.val b }

/-- The slot of the low-order byte of pair `j` (R72, R121): KNOB_BASE + 2j. -/
def knobLo (j : Fin Config.nKnob) : Slot :=
  ⟨Config.knobBase + 2 * j.val, by have := j.isLt; simp only [Config.knobBase, Config.nKnob, Config.frameLen] at *; omega⟩

/-- The slot of the shifted byte of pair `j` (R72, R121). -/
def knobHi (j : Fin Config.nKnob) : Slot :=
  ⟨Config.knobBase + 2 * j.val + 1, by have := j.isLt; simp only [Config.knobBase, Config.nKnob, Config.frameLen] at *; omega⟩

/-- The slot of row `r` (R72, R122): ROW_BASE + r. -/
def rowSlot (r : Fin Config.nRow) : Slot :=
  ⟨Config.rowBase + r.val, by have := r.isLt; simp only [Config.rowBase, Config.nRow, Config.frameLen] at *; omega⟩

/-- `raise TransportReadError`: the fault entry. "Nothing else changes" (R210). -/
def State.raiseTransportReadError (s : State) : State :=
  { s with phase := .halted, cause := .transportRead }

/-- The effect of STOP (R191). -/
def State.haltStopped (s : State) : State :=
  { s with phase := .halted, cause := .stopped }

/-- The frame buffer after the RESET of edge `n`: unspecified (R32, R190; log 2). -/
def freeFrame (n : Nat) : Vector Byte Config.frameLen := Vector.ofFn (Config.freeSlot n)

/-- The effect of RESET, the only way out of HALTED (R190, R212). The record of the streams begins anew and the old one is
kept, since no transfer can be undone (R59; log 10). Nothing is discarded, in phase FLUSH too, where `rx_flush` is 1 at the
edge of the reset (R46) and R190 says that it stays 0: a choice between the two rules (DESIGN CHOICE, log 19). -/
def State.restart (s : State) : State :=
  { s with fb := freeFrame s.draw, phase := .seeking, cnt := 0, eidx := 0, cause := .none
           run := Run.empty, past := s.past ++ [s.run] }

/-- The edge is over: the next inputs of the script apply, and the next edge uses free values of its own. -/
def State.advance (s : State) : State :=
  { s with inputs := s.inputs.tail, draw := s.draw + 1 }

/-- The whole event stream handed to the sink, across resets (R40, R63). -/
def State.eventStream (s : State) : List EvWord := s.past.flatMap Run.events ++ s.run.events

/-! ## Placing one word where the coming edge meets it -/

/-- An edge at which nothing is asserted and nothing would be dropped. -/
def Edge.idle : Edge :=
  { rst := false, offer := false, rxErr := false, evReady := false, stopReq := false, drop := 0 }

/-- The coming edge is in SEEKING and offers the byte `b`. -/
def State.placeByte (b : Byte) (s : State) : State :=
  { s with phase := .seeking, rx := b :: s.rx, inputs := { Edge.idle with offer := true } :: s.inputs }

/-- The coming edge is in DISPATCH at the index of the event, the sink is ready, and the slots the operation reads hold
bytes that give the event: for a knob the two bytes `val & 0x7F`, `val >> 7` (R76, R91; log 16). -/
def State.placeEvent (e : Event) (s : State) : State :=
  match e with
  | .knob id val =>
    { s with phase := .dispatch, eidx := e.index
             fb := (s.fb.set (knobLo id.rev).val ((val.extractLsb' 0 7).setWidth Config.byteW)).set (knobHi id.rev).val
               (val.extractLsb' 7 Config.byteW)
             inputs := { Edge.idle with evReady := true } :: s.inputs }
  | .bay id conn =>
    { s with phase := .dispatch, eidx := e.index
             fb := s.fb.set (rowSlot id.rev).val (conn.setWidth Config.byteW)
             inputs := { Edge.idle with evReady := true } :: s.inputs }

/-- The coming edge is in SEEKING and offers nothing. -/
def State.placeNothing (s : State) : State :=
  { s with phase := .seeking, inputs := Edge.idle :: s.inputs }

end Sys2Proof.Machine
end

