-- ==== Sys2Proof/Machine/Control.lean ====
section
/-! DEFINITION. The control operations: RESET, STOP, WAIT (43_control.md). -/

namespace Sys2Proof.Machine

/-- RESET (R190): `phase <- SEEKING; cnt <- 0; eidx <- 0; cause <- 0`; no byte is taken, no event transferred, nothing
discarded; `FB` unspecified afterwards (log 2). -/
def execReset (s : State) : Host.Outcome State Fault Refusal := .next s.restart

/-- STOP (R191): `phase <- HALTED; cause <- 1`. The second half of EMITB0 (R142; log 7). -/
def execStop (s : State) : Host.Outcome State Fault Refusal := .next s.haltStopped

/-- WAIT (R192): no state changes. -/
def execWait (s : State) : Host.Outcome State Fault Refusal := .next s

end Sys2Proof.Machine
end

