-- ==== Sys2Proof/Machine/Scaler.lean ====
section
/-! DEFINITION. The linear range-mapper (R100 to R107): the exact value, the number it is rounded to, which configurations
are admitted, and the one instance. -/

namespace Sys2Proof.Machine

/-- `Q(v)`, the value in exact rational arithmetic (R101). -/
def exactValue (c : ScalerConfig) (v : Nat) : ℚ :=
  ((v : ℚ) - (c.srcBeg : ℚ) / (c.den : ℚ)) / ((c.srcEnd : ℚ) / (c.den : ℚ) - (c.srcBeg : ℚ) / (c.den : ℚ)) *
      ((c.dstEnd : ℚ) / (c.den : ℚ) - (c.dstBeg : ℚ) / (c.den : ℚ)) + (c.dstBeg : ℚ) / (c.den : ℚ)

/-- `floor(Q(v) * 2^VAL_F)` in integers (R103; the last form of R106, with the interval ends over a common denominator). -/
def scaleInt (c : ScalerConfig) (v : Nat) : Int :=
  Int.fdiv ((((v : Int) * c.den - c.srcBeg) * (c.dstEnd - c.dstBeg) + c.dstBeg * (c.srcEnd - c.srcBeg)) * 2 ^ c.valF)
    ((c.srcEnd - c.srcBeg) * c.den)

/-- The multiply-add form: one multiply, one add, one arithmetic right shift (R106). -/
def mulAdd (m a : Int) (sh : Nat) (v : Nat) : Int := (m * v + a) >>> sh

/-- The number fits a field of VAL_W bits, unsigned or two's complement (R103). -/
def fitsField (c : ScalerConfig) (x : Int) : Bool :=
  if c.signed then decide (-(2 ^ c.valW) ≤ 2 * x ∧ 2 * x < 2 ^ c.valW) else decide (0 ≤ x ∧ x < 2 ^ c.valW)

/-- The largest input, a raw word of RAW_W bits (R100). -/
def maxRaw : Nat := 2 ^ Config.rawW - 1

/-- Why a configuration is no block: the ScalerDomainError of R206. -/
inductive ScalerDomainError where
  /-- `SRC_END = SRC_BEG` (R102). -/
  | zeroSourceWidth
  /-- An output does not fit the value field (R103). -/
  | outputDoesNotFit
  /-- The common denominator of the interval ends is zero: the data name no interval (log 14). -/
  | zeroDenominator
deriving DecidableEq, Repr

/-- The checks of R103 and R206. The map is affine, so the least and the greatest input decide for all. -/
def checkScaler (c : ScalerConfig) : Option ScalerDomainError :=
  if c.den = 0 then some .zeroDenominator
  else if c.srcEnd = c.srcBeg then some .zeroSourceWidth
  else if fitsField c (scaleInt c 0) && fitsField c (scaleInt c maxRaw) then none
  else some .outputDoesNotFit

/-- An admitted configuration, with the proof that it is (R206: "the configuration type carries a proof"). -/
def Scaler : Type := { c : ScalerConfig // checkScaler c = none }

/-- Building the range-mapper: a configuration that is no block is refused here, never at run time (R102, R206). -/
def buildScaler (c : ScalerConfig) : Except ScalerDomainError Scaler :=
  match h : checkScaler c with
  | none => .ok ⟨c, h⟩
  | some e => .error e

/-- The value field of a range-mapper, VAL_W bits (R103). -/
def Scaler.field (m : Scaler) (v : Nat) : BitVec m.val.valW := BitVec.ofInt m.val.valW (scaleInt m.val v)

/-- The instance is admitted (R102, R104). -/
theorem scaler_admitted : checkScaler Config.scaler = none := by decide

/-- The block's one range-mapper (R100, R104). -/
def blockScaler : Scaler := ⟨Config.scaler, scaler_admitted⟩

/-- `scale(raw)`, the value field of a KNOB event (R103, R121). -/
def scale (raw : RawWord) : RawWord := (blockScaler.field raw.toNat).setWidth Config.rawW

end Sys2Proof.Machine
end

