-- ==== Sys2Proof/Machine/Operands.lean ====
section
/-! DEFINITION. The bit-slice multiplexer: what the EMIT operations cut out of the frame buffer (R76, R80, R121, R122) and
the event word they make of it (R126, R130). -/

namespace Sys2Proof.Machine

/-- `raw = (hi << 7) | lo`: no bit masked off, an OR and not an addition (R76, R77, R123). -/
def rawWord (lo hi : Byte) : RawWord := (hi.setWidth Config.rawW <<< Config.knobShift) ||| lo.setWidth Config.rawW

/-- `conn`: bits 5:0 of the row byte, unchanged (R84). -/
def rowConn (b : Byte) : BitVec Config.rowBits := b.extractLsb' 0 Config.rowBits

/-- The six flags of a row byte, first flag first: flag = 1 if `(byte & mask) == mask` (R80). -/
def rowFlags (b : Byte) : List Bool := Config.rowMasks.map fun m => b &&& m == m

/-- The KNOB word of pair `j` over a frame: `{0b0, 5 - j, scale(raw(j))}` (R79, R121). -/
def knobEvent (fb : Vector Byte Config.frameLen) (j : Fin Config.nKnob) : EvWord :=
  knobWord (BitVec.ofNat 3 j.rev.val) (scale (rawWord fb[(knobLo j).val] fb[(knobHi j).val]))

/-- The BAY word of row `r` over a frame: `{0b1, 5 - r, 0b000000000, FB[12 + r][5:0]}` (R81, R122). -/
def rowEvent (fb : Vector Byte Config.frameLen) (r : Fin Config.nRow) : EvWord :=
  bayWord (BitVec.ofNat 3 r.rev.val) (rowConn fb[(rowSlot r).val])

/-- `W(e)`, the event word of index `e` over a frame (R130): the knobs first, then the rows (R125). -/
def eventWord (fb : Vector Byte Config.frameLen) (e : EventIndex) : EvWord :=
  if h : e.val < Config.nKnob then knobEvent fb ⟨e.val, h⟩
  else rowEvent fb ⟨e.val - Config.nKnob, by
    have := e.isLt; simp only [Config.eventsPerFrame, Config.nKnob, Config.nRow] at *; omega⟩

/-- What the six knob EMITs share: `EvPut({0b0, 5 - j, scale(raw(j))}); eidx <- next` (R131 to R136). -/
def State.emitKnob (j : Fin Config.nKnob) (next : EventIndex) (s : State) : State :=
  { s.evPut (knobEvent s.fb j) with eidx := next }

/-- What the six row EMITs share: `EvPut({0b1, 5 - r, 0b000000000, FB[12 + r][5:0]}); eidx <- next` (R137 to R142). -/
def State.emitBay (r : Fin Config.nRow) (next : EventIndex) (s : State) : State :=
  { s.evPut (rowEvent s.fb r) with eidx := next }

end Sys2Proof.Machine
end

