-- ==== Sys2Proof/Machine/Extractor.lean ====
section
/-! DEFINITION. The bit-field extractor: the twelve EMIT operations (41_frame_decoder.md). -/

namespace Sys2Proof.Machine

/-- EMITK5 (R131): knob 5, pair 0, from `FB[0]` and `FB[1]`; then `eidx <- 1`. -/
def execEmitk5 (s : State) : Host.Outcome State Fault Refusal :=
  .next (s.emitKnob 0 1)

/-- EMITK4 (R132): knob 4, pair 1, from `FB[2]` and `FB[3]`; then `eidx <- 2`. -/
def execEmitk4 (s : State) : Host.Outcome State Fault Refusal :=
  .next (s.emitKnob 1 2)

/-- EMITK3 (R133): knob 3, pair 2, from `FB[4]` and `FB[5]`; then `eidx <- 3`. -/
def execEmitk3 (s : State) : Host.Outcome State Fault Refusal :=
  .next (s.emitKnob 2 3)

/-- EMITK2 (R134): knob 2, pair 3, from `FB[6]` and `FB[7]`; then `eidx <- 4`. -/
def execEmitk2 (s : State) : Host.Outcome State Fault Refusal :=
  .next (s.emitKnob 3 4)

/-- EMITK1 (R135): knob 1, pair 4, from `FB[8]` and `FB[9]`; then `eidx <- 5`. -/
def execEmitk1 (s : State) : Host.Outcome State Fault Refusal :=
  .next (s.emitKnob 4 5)

/-- EMITK0 (R136): knob 0, pair 5, from `FB[10]` and `FB[11]`; then `eidx <- 6`. -/
def execEmitk0 (s : State) : Host.Outcome State Fault Refusal :=
  .next (s.emitKnob 5 6)

/-- EMITB5 (R137): output 5, row 0, from `FB[12]`; then `eidx <- 7`. -/
def execEmitb5 (s : State) : Host.Outcome State Fault Refusal :=
  .next (s.emitBay 0 7)

/-- EMITB4 (R138): output 4, row 1, from `FB[13]`; then `eidx <- 8`. -/
def execEmitb4 (s : State) : Host.Outcome State Fault Refusal :=
  .next (s.emitBay 1 8)

/-- EMITB3 (R139): output 3, row 2, from `FB[14]`; then `eidx <- 9`. -/
def execEmitb3 (s : State) : Host.Outcome State Fault Refusal :=
  .next (s.emitBay 2 9)

/-- EMITB2 (R140): output 2, row 3, from `FB[15]`; then `eidx <- 10`. -/
def execEmitb2 (s : State) : Host.Outcome State Fault Refusal :=
  .next (s.emitBay 3 10)

/-- EMITB1 (R141): output 1, row 4, from `FB[16]`; then `eidx <- 11`. -/
def execEmitb1 (s : State) : Host.Outcome State Fault Refusal :=
  .next (s.emitBay 4 11)

/-- EMITB0 (R142): output 0, row 5, from `FB[17]`; `eidx <- 0`; `if stop_req = 1 then STOP else phase <- SEEKING`. -/
def execEmitb0 (s : State) : Host.Outcome State Fault Refusal :=
  if s.edge.stopReq then .next (s.emitBay 5 0).haltStopped
  else .next { s.emitBay 5 0 with phase := .seeking }

end Sys2Proof.Machine
end

