-- ==== Sys2Proof/Machine/Faults.lean ====
section
/-! DEFINITION. The fault operation RXERR and the error classes of the source (60_exceptions.md). -/

namespace Sys2Proof.Machine

/-- RXERR (R209): `raise TransportReadError`. -/
def execRxerr (s : State) : Host.Outcome State Fault Refusal := .next s.raiseTransportReadError

/-- The four error classes (R200). -/
inductive ErrorClass where
  /-- (a) Before the block runs; never raised by it (R203). -/
  | transportOpenError
  /-- (b) The block's one fault (R207, R209). -/
  | transportReadError
  /-- (c) Never detected, never raised (R204). -/
  | protocolAmbiguity
  /-- (d) At build time; such a block does not exist (R206). -/
  | scalerDomainError
deriving DecidableEq, Repr

/-- The code a class records in `cause` (R200). -/
def ErrorClass.recorded : ErrorClass → Option Cause
  | .transportOpenError => none
  | .transportReadError => some .transportRead
  | .protocolAmbiguity => none
  | .scalerDomainError => none

end Sys2Proof.Machine
end

