-- ==== Sys2Proof/Machine/Synchronizer.lean ====
section
/-! DEFINITION. The frame synchronizer: SYNC, SKIP, CAPT, CAPTL, FLUSH (42_frame_reader.md). -/

namespace Sys2Proof.Machine

/-- SYNC (R165): `b <- RxTake(); phase <- READING_FRAME; cnt <- 0`. The marker is not stored. -/
def execSync (s : State) : Host.Outcome State Fault Refusal :=
  .next { s.rxTake Config.marker with phase := .readingFrame, cnt := 0 }

/-- SKIP (R164): `b <- RxTake()` and nothing else. -/
def execSkip (b : Byte) (s : State) : Host.Outcome State Fault Refusal :=
  .next (s.rxTake b)

/-- CAPT (R166): `b <- RxTake(); FB[cnt] <- b; cnt <- cnt + 1`; `slot` is `cnt`, 0..16. -/
def execCapt (slot : Fin Config.lastSlot) (b : Byte) (s : State) : Host.Outcome State Fault Refusal :=
  .next { (s.rxTake b).setSlot slot.castSucc b with cnt := slot.succ }

/-- CAPTL (R167): `b <- RxTake(); FB[17] <- b; cnt <- 0; phase <- FLUSH`. -/
def execCaptl (b : Byte) (s : State) : Host.Outcome State Fault Refusal :=
  .next { (s.rxTake b).setSlot (Fin.last Config.lastSlot) b with cnt := 0, phase := .flush }

/-- FLUSH (R168): `RxDiscard(); phase <- DISPATCH; eidx <- 0`. -/
def execFlush (q : Nat) (s : State) : Host.Outcome State Fault Refusal :=
  .next { s.rxDiscard q with phase := .dispatch, eidx := 0 }

end Sys2Proof.Machine
end

