-- ==== Sys2Proof/Machine/Dispatch.lean ====
section
/-! DEFINITION. Every operation sent to its meaning, one arm per constructor. -/

namespace Sys2Proof.Machine

def exec (i : Instr) (s : State) : Host.Outcome State Fault Refusal :=
  match i with
  | .reset => Sys2Proof.Machine.execReset s
  | .sync => Sys2Proof.Machine.execSync s
  | .skip b => Sys2Proof.Machine.execSkip b s
  | .capt slot b => Sys2Proof.Machine.execCapt slot b s
  | .captl b => Sys2Proof.Machine.execCaptl b s
  | .rxerr => Sys2Proof.Machine.execRxerr s
  | .flush q => Sys2Proof.Machine.execFlush q s
  | .emitk5 => Sys2Proof.Machine.execEmitk5 s
  | .emitk4 => Sys2Proof.Machine.execEmitk4 s
  | .emitk3 => Sys2Proof.Machine.execEmitk3 s
  | .emitk2 => Sys2Proof.Machine.execEmitk2 s
  | .emitk1 => Sys2Proof.Machine.execEmitk1 s
  | .emitk0 => Sys2Proof.Machine.execEmitk0 s
  | .emitb5 => Sys2Proof.Machine.execEmitb5 s
  | .emitb4 => Sys2Proof.Machine.execEmitb4 s
  | .emitb3 => Sys2Proof.Machine.execEmitb3 s
  | .emitb2 => Sys2Proof.Machine.execEmitb2 s
  | .emitb1 => Sys2Proof.Machine.execEmitb1 s
  | .emitb0 => Sys2Proof.Machine.execEmitb0 s
  | .stop => Sys2Proof.Machine.execStop s
  | .wait => Sys2Proof.Machine.execWait s

end Sys2Proof.Machine
end

