-- ==== Sys2Proof/Machine/Flags.lean ====
section
/-! DEFINITION. The block has no condition codes and no arithmetic flags (R27). Here are the words its four registers
hold, in the widths of R8 and R20, the status outputs that show two of them (R24, R27, R29), and the port outputs, all
functions of the state (R41). -/

namespace Sys2Proof.Machine

/-- The encoding of `phase` (R24). -/
def phaseCode : Phase → BitVec Config.phaseW
  | .seeking => 0
  | .readingFrame => 1
  | .flush => 2
  | .dispatch => 3
  | .halted => 4

/-- The encoding of `cause` (R27). -/
def causeCode : Cause → BitVec Config.causeW
  | .none => 0
  | .stopped => 1
  | .transportRead => 2

/-- The word the register `cnt` holds (R20, R25). -/
def cntCode (cnt : Slot) : BitVec Config.cntW := BitVec.ofNat Config.cntW cnt.val

/-- The word the register `eidx` holds (R20, R26). -/
def eidxCode (eidx : EventIndex) : BitVec Config.eidxW := BitVec.ofNat Config.eidxW eidx.val

/-- The sequencer position as the words of its three registers (R23). -/
def State.positionWords (s : State) : BitVec Config.phaseW × BitVec Config.cntW × BitVec Config.eidxW :=
  (phaseCode s.phase, cntCode s.cnt, eidxCode s.eidx)

/-- `st_phase` (R29). -/
def State.stPhase (s : State) : BitVec Config.phaseW := phaseCode s.phase

/-- `st_cause` (R29). -/
def State.stCause (s : State) : BitVec Config.causeW := causeCode s.cause

/-- `rx_ready`: 1 exactly in SEEKING and READING_FRAME (R43). -/
def State.rxReady (s : State) : Bool := s.phase = .seeking || s.phase = .readingFrame

/-- `rx_flush`: 1 exactly in FLUSH (R46), whatever `rst` is, since outputs do not depend on inputs (R41; log 19). -/
def State.rxFlush (s : State) : Bool := s.phase = .flush

/-- `ev_valid`: 1 exactly in DISPATCH (R49). -/
def State.evValid (s : State) : Bool := s.phase = .dispatch

/-- `ev_word`: `W(eidx)` while `ev_valid = 1`, a free value otherwise (R49, R130, U12; log 9). -/
def State.evWord (s : State) : EvWord :=
  if s.evValid then eventWord s.fb s.eidx else Config.freeEvWord s.draw

/-- `rx_valid` (R41, R42). -/
def State.rxValid (s : State) : Bool := s.rxOffer.isSome

end Sys2Proof.Machine
end

