-- ==== Sys2Proof/Machine/Step.lean ====
section
/-! DEFINITION. One rising clock edge (R41, R74): the inputs and the sequencer position select one operation, it is
performed, and the next edge's inputs follow. -/

namespace Sys2Proof.Machine

/-- One edge. -/
def step (s : State) : Host.Outcome State Fault Refusal :=
  match exec (decode s.fetch) s with
  | .next t => .next t.advance
  | .fault r => .fault r
  | .refused r => .refused r

/-- `s` with the operation of a table word selected at the coming edge: a byte is offered in SEEKING; an event word has
its operation selected in DISPATCH over slots that give that very word; no bits are an edge that offers nothing. A word
that decodes to nothing changes nothing (logs 6, 15, 16). -/
def State.withFetchWord (s : State) (nbits w : Nat) : State :=
  if nbits = Config.byteW ∧ w < 2 ^ Config.byteW then s.placeByte (BitVec.ofNat Config.byteW w)
  else if (nbits = 24 ∨ nbits = 19) ∧ w < 2 ^ 19 then
    match decodeEvent (BitVec.ofNat 19 w) with
    | .ok e => s.placeEvent e
    | .error _ => s
  else if nbits = 0 ∧ w = 0 then s.placeNothing
  else s

end Sys2Proof.Machine
end

