-- ==== Sys2Proof/Machine/Script.lean ====
section
/-! DEFINITION. The printed forms of operations and events (R90), and the sink's outward names an event word stands for,
recorded for reference (R88: the block does not produce them). No effect on behaviour (D18). -/

namespace Sys2Proof.Machine

/-- A hexadecimal digit, capital. -/
def hexDigit (n : BitVec 4) : String := String.singleton (Nat.digitChar n.toNat).toUpper

/-- A byte as two hexadecimal digits. -/
def hexByte (b : Byte) : String := hexDigit (b.extractLsb' 4 4) ++ hexDigit (b.extractLsb' 0 4)

/-- The printed form of an operation (R90). -/
def script : Instr → String
  | .reset => "RESET"
  | .sync => "SYNC"
  | .skip b => "SKIP " ++ hexByte b
  | .capt slot b => "CAPT " ++ toString slot.val ++ " " ++ hexByte b
  | .captl b => "CAPTL " ++ hexByte b
  | .rxerr => "RXERR"
  | .flush q => "FLUSH " ++ toString q
  | .emitk5 => "EMITK5"
  | .emitk4 => "EMITK4"
  | .emitk3 => "EMITK3"
  | .emitk2 => "EMITK2"
  | .emitk1 => "EMITK1"
  | .emitk0 => "EMITK0"
  | .emitb5 => "EMITB5"
  | .emitb4 => "EMITB4"
  | .emitb3 => "EMITB3"
  | .emitb2 => "EMITB2"
  | .emitb1 => "EMITB1"
  | .emitb0 => "EMITB0"
  | .stop => "STOP"
  | .wait => "WAIT"

/-- The connection sequence of a BAY event, first element first: element `t` is `conn[5 - t]` (R84). -/
def connections (conn : BitVec Config.rowBits) : List Bool :=
  (List.range Config.rowBits).map fun t => conn.getLsbD (Config.rowBits - 1 - t)

/-- One digit per flag. -/
def flagDigit (b : Bool) : String := if b then "1" else "0"

/-- The printed form of an event (R90): `KNOB n raw`, `BAY n f0f1f2f3f4f5`. -/
def eventScript : Event → String
  | .knob id val => "KNOB " ++ toString id.val ++ " " ++ toString val.toNat
  | .bay id conn => "BAY " ++ toString id.val ++ " " ++ String.join ((connections conn).map flagDigit)

/-- The address an event stands for (R88). -/
def address : Event → String
  | .knob id _ => "/repatcher/knob" ++ toString id.val
  | .bay id _ => "/repatcher/output" ++ toString id.val

end Sys2Proof.Machine
end

