-- ==== Sys2Proof/Safety.lean ====
section
/-! DEFINITION. The terms claims are stated in: how a run ends, the invariants, the frames of a consumed sequence read off
the spec's own sentence (R53), which slots matter, and what the surroundings may do. -/

namespace Sys2Proof.Machine

/-! ## How a run ends (R54) -/

/-- A faulted state: halted by a read failure (R54, C11). -/
def State.faulted (s : State) : Prop := s.phase = .halted ∧ s.cause = .transportRead

/-- The one final state of a run that ended as asked (R54). -/
def State.endedAsAsked (s : State) : Prop := s.phase = .halted ∧ s.cause = .stopped

/-- `k` edges. -/
def afterEdges (k : Nat) (s : State) : Host.Outcome State Fault Refusal := Sys2Proof.core.run k s

/-! ## What two states share -/

/-- Every slot of the frame buffer holds the same byte. -/
def SameSlots (s t : State) : Prop := ∀ i : Slot, t.slot i = s.slot i

/-- The sequencer's registers and `cause` are the same. -/
def SameSequencer (s t : State) : Prop :=
  t.phase = s.phase ∧ t.cnt = s.cnt ∧ t.eidx = s.eidx ∧ t.cause = s.cause

/-- No byte is taken or dropped. -/
def SameReceive (s t : State) : Prop := t.rx = s.rx ∧ t.run.taken = s.run.taken

/-- The byte `b` is taken: it leaves the head of the stream and joins the consumed sequence, and nothing else does. -/
def TakesByte (b : Byte) (s t : State) : Prop := t.rx = s.rx.tail ∧ t.run.taken = s.run.taken ++ [b]

/-- No event is transferred. -/
def SameEvents (s t : State) : Prop := t.run.events = s.run.events

/-- Exactly the event word `w` is transferred. -/
def PutsEvent (w : EvWord) (s t : State) : Prop := t.run.events = s.run.events ++ [w]

/-- The script of inputs, the earlier runs and the counter of free values are the same. -/
def SameSurroundings (s t : State) : Prop := t.inputs = s.inputs ∧ t.past = s.past ∧ t.draw = s.draw

/-! ## The frames of a consumed sequence -/

/-- The order of the twelve events of a frame (R62, R125). -/
def eventOrder : List EventIndex := [0, 1, 2, 3, 4, 5, 6, 7, 8, 9, 10, 11]

/-- The twelve event words of a frame, in order (R130). -/
def frameEvents (fb : Vector Byte Config.frameLen) : List EvWord := eventOrder.map (eventWord fb)

/-- A frame body as the contents of the frame buffer. -/
def bodyOf (body : List Byte) : Vector Byte Config.frameLen := Vector.ofFn fun i => body.getD i.val 0

/-- R53: "repeat: drop bytes of C up to and including the first 0xC0; take the next 18 bytes" (`fuel` bounds the number of frames). -/
def framesWithin : Nat → List Byte → List (List Byte)
  | 0, _ => []
  | fuel + 1, c =>
    match c.dropWhile (· != Config.marker) with
    | [] => []
    | _ :: rest => if rest.length < 18 then [] else rest.take 18 :: framesWithin fuel (rest.drop 18)

/-- The complete frame bodies of a consumed sequence, in order. -/
def framesOf (c : List Byte) : List (List Byte) := framesWithin c.length c

/-- A consumed sequence read byte by byte (R160): the complete bodies so far, and the body being read, if one is. -/
structure Scan where
  frames : List (List Byte)
  current : Option (List Byte)
deriving DecidableEq, Repr

/-- One more byte: the marker opens a body; the 18th byte closes it (R71, R160). -/
def Scan.byte (σ : Scan) (b : Byte) : Scan :=
  match σ.current with
  | none => if b = Config.marker then { σ with current := some [] } else σ
  | some body =>
    if body.length < 17 then { σ with current := some (body ++ [b]) }
    else { frames := σ.frames ++ [body ++ [b]], current := none }

/-- The whole sequence. -/
def scan (c : List Byte) : Scan := c.foldl Scan.byte { frames := [], current := none }

/-! ## Invariants -/

/-- R28 (i), (ii), (iii). Part (iv) is in the types. -/
def SequencerInv (s : State) : Prop :=
  (s.phase = .halted ↔ s.cause ≠ .none) ∧
  (s.phase ≠ .readingFrame → s.phase ≠ .halted → s.cnt = 0) ∧
  (s.phase ≠ .dispatch → s.eidx = 0)

/-- The events of the stored frame that are still to be transferred. -/
def State.pending (s : State) : List EvWord :=
  match s.phase with
  | .flush => frameEvents s.fb
  | .dispatch => (eventOrder.drop s.eidx.val).map (eventWord s.fb)
  | .seeking => []
  | .readingFrame => []
  | .halted => []

/-- Where the scan of the consumed sequence stands in each phase: seeking, in a body whose bytes are slots `0..cnt-1`
(R57), or just past a body that is the whole frame buffer (R28 (v)). -/
def State.synchronized (s : State) : Prop :=
  match s.phase with
  | .seeking => (scan s.run.taken).current = none
  | .readingFrame => (scan s.run.taken).current = some (s.fb.toList.take s.cnt.val)
  | .flush => (scan s.run.taken).current = none ∧ (scan s.run.taken).frames.getLast? = some s.fb.toList
  | .dispatch => (scan s.run.taken).current = none ∧ (scan s.run.taken).frames.getLast? = some s.fb.toList
  | .halted => True

/-- The event stream is the events of the frames of the consumed sequence, less those still to be transferred
(R53, R57, R62, R63, R120). -/
def StreamInv (s : State) : Prop :=
  s.synchronized ∧
  s.run.events ++ s.pending = (scan s.run.taken).frames.flatMap fun body => frameEvents (bodyOf body)

/-! ## Which slots matter -/

/-- How many slots hold bytes of the frame in hand (R22, R169): the others are never read before they are written. -/
def State.capturedSlots (s : State) : Nat :=
  match s.phase with
  | .seeking => 0
  | .readingFrame => s.cnt.val
  | .flush => 18
  | .dispatch => 18
  | .halted => 0

/-- Two states that differ at most in slots not captured. -/
def AgreeUpToUnread (s t : State) : Prop :=
  SameSequencer s t ∧ t.rx = s.rx ∧ t.inputs = s.inputs ∧ t.run = s.run ∧ t.past = s.past ∧ t.draw = s.draw ∧
  ∀ i : Slot, i.val < s.capturedSlots → t.slot i = s.slot i

/-! ## The surroundings -/

/-- What the transport may hand over of a sent sequence: all of it in order, or with RX_LOSSY any subsequence that keeps
order (R44). A claim for every `rx` is a claim for every such loss. -/
def mayHandOver (sent rx : List Byte) : Prop :=
  if Config.rxLossy then rx.Sublist sent else rx = sent

/-- An edge at which the host does not reset. -/
def Edge.runs (e : Edge) : Bool := !e.rst

/-- An edge at which the transport offers a byte and the host does not reset. -/
def Edge.offers (e : Edge) : Bool := !e.rst && e.offer

/-- An edge at which the sink is ready and the host does not reset. -/
def Edge.serves (e : Edge) : Bool := !e.rst && e.evReady

/-- How many of the edges serve: the duty of the sink (R50, D22) is a lower bound on it. -/
def servings (es : List Edge) : Nat := es.countP Edge.serves

/-- A byte of a 7-bit-clean device (R86, R235): bit 7 is 0. -/
def sevenBitClean (b : Byte) : Bool := !b.getLsbD 7

/-- A frame body of such a device: 18 bytes, all clean. -/
def cleanBody (body : List Byte) : Bool := body.length = 18 && body.all sevenBitClean

/-- A stretch of a device's stream (R73): bytes of any kind, then one frame. -/
structure Segment where
  gap : List Byte
  body : List Byte
deriving DecidableEq, Repr

/-- The bytes of the stretch. -/
def Segment.bytes (g : Segment) : List Byte := g.gap ++ frameBytes g.body

end Sys2Proof.Machine
end

