-- ==== Sys2Proof/Certificates/Slice0/Obligations.lean ====
section
/-! DEFINITION. The statements for the provers: what the operations do, what the whole machine keeps, and that encodings agree. -/

open Sys2Proof Sys2Proof.Machine

/-- What every EMIT but the last has in common (R130): selected exactly in DISPATCH at its index with a ready sink, it transfers its
word, moves the index on, and changes nothing else. -/
def EmitsAndMovesOn (i : Instr) (index next : Fin 12) (word : State → EvWord) : Prop :=
  ∀ s : State,
    (decode s.fetch = i ↔ s.edge.rst = false ∧ s.phase = .dispatch ∧ s.edge.evReady = true ∧ s.eidx = index) ∧
    ∃ t, exec i s = .next t ∧ PutsEvent (word s) s t ∧ t.eidx = next ∧ t.phase = s.phase ∧ t.cnt = s.cnt ∧
      t.cause = s.cause ∧ SameSlots s t ∧ SameReceive s t ∧ SameSurroundings s t

/-- The raw word of the pair in slots `lo`, `hi`, as R121 writes it. -/
def pairRaw (lo hi : Fin 18) (s : State) : RawWord := ((s.slot hi).setWidth 15 <<< 7) ||| (s.slot lo).setWidth 15

/-- Bits 5:0 of slot `i` (R122). -/
def lowSix (i : Fin 18) (s : State) : BitVec 6 := (s.slot i).extractLsb' 0 6

/-- The reset state has the values the spec gives: SEEKING, both counters 0, no cause, and the outputs that follow. Formalises R32. -/
def Obligations.ResetStateHasTheValuesOfTheTable : Prop :=
  State.reset.phase = .seeking ∧ State.reset.cnt = 0 ∧ State.reset.eidx = 0 ∧ State.reset.cause = .none ∧
  State.reset.stPhase = 0#3 ∧ State.reset.stCause = 0#2 ∧ State.reset.rxReady = true ∧ State.reset.rxFlush = false ∧
  State.reset.evValid = false

/-- The reset state meets the sequencer invariant and the stream invariant. Rests on 10_state.md section 4, 20_memory.md section 6. That the records of the streams are empty at reset is the model's choice, log 10. -/
def Obligations.ResetStateMeetsTheInvariants : Prop :=
  SequencerInv State.reset ∧ StreamInv State.reset

/-- A step performs the operation the position and the inputs decode to, then the edge is over. Rests on 30_encoding.md section 3, 00_scope.md section 6. The script of edges and the counter of free values are the model's, logs 4 and 5. -/
def Obligations.StepPerformsTheDecodedOperation : Prop :=
  ∀ (s t : State) (i : Instr), decode s.fetch = i → exec i s = .next t →
    step s = .next { t with inputs := t.inputs.tail, draw := t.draw + 1 }

/-- Words written out from the spec's encodings decode to their operations. Rests on 95_test_vectors.md part 2, 30_encoding.md section 6. That a bare table byte is met in SEEKING is the model's choice, log 15. -/
def Obligations.WordsOfTheSpecDecode : Prop :=
  decodeTableWord 8 0b11000000 = some .sync ∧ decodeTableWord 8 0x55 = some (.skip 0x55#8) ∧
  decodeByte .readingFrame 10 0x80#8 = .ok (.capt (10 : Fin 17) 0x80#8) ∧ decodeByte .readingFrame 0 0xC0#8 = .ok (.capt (0 : Fin 17) 0xC0#8) ∧
  decodeByte .readingFrame 17 0x3F#8 = .ok (.captl 0x3F#8) ∧
  decodeTableWord 24 0b0101000001111111111 = some .emitk5 ∧ decodeTableWord 24 0b0000001010101010101 = some .emitk0 ∧
  decodeTableWord 24 0b1101000000000100000 = some .emitb5 ∧ decodeTableWord 24 0b1000000000000111111 = some .emitb0 ∧
  decodeEvent 0b0110000000000000000#19 = .error .eventIdUnused ∧
  decodeEvent 0b1000000000001000000#19 = .error .bayPayloadNotZero

/-- SKIP: a byte other than the marker, offered while seeking, is taken and lost; nothing else changes. Formalises R164. -/
def Obligations.SkipTakesTheByteAndNothingElse : Prop :=
  (∀ (s : State) (b : Byte), ∃ t, exec (.skip b) s = .next t ∧ TakesByte b s t ∧ SameSequencer s t ∧ SameSlots s t ∧
    SameEvents s t ∧ SameSurroundings s t) ∧
  ∀ (s : State) (b : Byte), decode s.fetch = .skip b ↔
    s.edge.rst = false ∧ s.phase = .seeking ∧ s.rxOffer = some b ∧ b ≠ 0xC0#8

/-- SYNC: the marker, offered while seeking, is taken; READING_FRAME with cnt 0; it is not stored. Formalises R165. -/
def Obligations.SyncTakesTheMarkerAndOpensAFrame : Prop :=
  (∀ s : State, ∃ t, exec .sync s = .next t ∧ TakesByte 0xC0#8 s t ∧ t.phase = .readingFrame ∧ t.cnt = 0 ∧
    t.eidx = s.eidx ∧ t.cause = s.cause ∧ SameSlots s t ∧ SameEvents s t ∧ SameSurroundings s t) ∧
  ∀ s : State, decode s.fetch = .sync ↔ s.edge.rst = false ∧ s.phase = .seeking ∧ s.rxOffer = some 0xC0#8

/-- CAPT: any byte offered while reading with cnt at most 16 goes to slot cnt, and cnt counts on. Formalises R166. -/
def Obligations.CaptStoresTheByteInTheSlotOfCnt : Prop :=
  (∀ (s : State) (slot : Fin 17) (b : Byte), ∃ t, exec (.capt slot b) s = .next t ∧ TakesByte b s t ∧
    t.slot slot.castSucc = b ∧ (∀ i : Fin 18, i ≠ slot.castSucc → t.slot i = s.slot i) ∧ t.cnt.val = slot.val + 1 ∧
    t.phase = s.phase ∧ t.eidx = s.eidx ∧ t.cause = s.cause ∧ SameEvents s t ∧ SameSurroundings s t) ∧
  ∀ (s : State) (slot : Fin 17) (b : Byte), decode s.fetch = .capt slot b ↔
    s.edge.rst = false ∧ s.phase = .readingFrame ∧ s.rxOffer = some b ∧ s.cnt.val = slot.val

/-- CAPTL: any byte offered while reading with cnt 17 goes to slot 17; cnt 0, phase FLUSH, rx_ready falls. Formalises R167. -/
def Obligations.CaptlStoresSlot17AndEndsIntake : Prop :=
  (∀ (s : State) (b : Byte), ∃ t, exec (.captl b) s = .next t ∧ TakesByte b s t ∧ t.slot 17 = b ∧
    (∀ i : Fin 18, i ≠ 17 → t.slot i = s.slot i) ∧ t.cnt = 0 ∧ t.phase = .flush ∧ t.rxReady = false ∧ t.eidx = s.eidx ∧
    t.cause = s.cause ∧ SameEvents s t ∧ SameSurroundings s t) ∧
  ∀ (s : State) (b : Byte), decode s.fetch = .captl b ↔
    s.edge.rst = false ∧ s.phase = .readingFrame ∧ s.rxOffer = some b ∧ s.cnt.val = 17

/-- FLUSH: the transport drops the draw, whatever it is; DISPATCH with eidx 0; FB, cnt, cause unchanged. Formalises R168. -/
def Obligations.FlushDropsTheDrawAndStartsDispatch : Prop :=
  (∀ (s : State) (q : Nat), ∃ t, exec (.flush q) s = .next t ∧ t.rx = s.rx.drop q ∧ t.run = s.run ∧ t.phase = .dispatch ∧
    t.eidx = 0 ∧ t.cnt = s.cnt ∧ t.cause = s.cause ∧ SameSlots s t ∧ SameSurroundings s t) ∧
  (∀ (s : State) (q : Nat), decode s.fetch = .flush q ↔ s.edge.rst = false ∧ s.phase = .flush ∧ q = s.edge.drop) ∧
  ∀ s : State, s.rxFlush = true ↔ s.phase = .flush

/-- RXERR: waiting for a byte, none offered, rx_err 1: HALTED with cause 2 and nothing else changed. Formalises R209, R210. -/
def Obligations.RxerrHaltsWithCauseTransportRead : Prop :=
  (∀ s : State, ∃ t, exec .rxerr s = .next t ∧ t.phase = .halted ∧ t.cause = .transportRead ∧ t.cnt = s.cnt ∧
    t.eidx = s.eidx ∧ SameSlots s t ∧ SameReceive s t ∧ SameEvents s t ∧ SameSurroundings s t ∧ t.rxReady = false ∧
    t.rxFlush = false ∧ t.evValid = false ∧ t.stPhase = 4#3 ∧ t.stCause = 2#2) ∧
  ∀ s : State, decode s.fetch = .rxerr ↔ s.edge.rst = false ∧ (s.phase = .seeking ∨ s.phase = .readingFrame) ∧
    s.rxOffer = none ∧ s.edge.rxErr = true

/-- RESET: rst 1 at any edge in any phase: SEEKING, counters 0, cause 0; nothing taken, transferred or discarded. Formalises R190. Nothing is said of FB, which the spec leaves unspecified after reset; that the record of taken bytes begins anew is the model's, log 10. At an edge in FLUSH this follows the cited rule, where the rule on the discard reads otherwise, log 19. -/
def Obligations.ResetStartsAnewFromAnyState : Prop :=
  (∀ s : State, decode s.fetch = .reset ↔ s.edge.rst = true) ∧
  ∀ s : State, ∃ t, exec .reset s = .next t ∧ t.phase = .seeking ∧ t.cnt = 0 ∧ t.eidx = 0 ∧ t.cause = .none ∧
    t.rxFlush = false ∧ t.evValid = false ∧ t.rx = s.rx ∧ t.eventStream = s.eventStream ∧ t.inputs = s.inputs ∧
    t.draw = s.draw

/-- WAIT: nothing is enabled, no state changes. Formalises R192. -/
def Obligations.WaitChangesNothing : Prop :=
  (∀ s : State, exec .wait s = .next s) ∧
  ∀ s : State, decode s.fetch = .wait ↔ s.edge.rst = false ∧
    (((s.phase = .seeking ∨ s.phase = .readingFrame) ∧ s.rxOffer = none ∧ s.edge.rxErr = false) ∨
     (s.phase = .dispatch ∧ s.edge.evReady = false) ∨ s.phase = .halted)

/-- STOP: HALTED with cause 1 and nothing else changed; it is the second half of EMITB0 when stop_req is 1. Rests on 43_control.md (STOP), 41_frame_decoder.md section 2. That no edge decodes to STOP alone is the model's reading of 'it is not performed alone', log 7. -/
def Obligations.StopHaltsWithCauseStopped : Prop :=
  (∀ s : State, ∃ t, exec .stop s = .next t ∧ t.phase = .halted ∧ t.cause = .stopped ∧ t.cnt = s.cnt ∧ t.eidx = s.eidx ∧
    SameSlots s t ∧ SameReceive s t ∧ SameEvents s t ∧ SameSurroundings s t) ∧
  ∀ s : State, s.edge.rst = false → s.phase = .dispatch → s.edge.evReady = true → s.eidx = 11 → s.edge.stopReq = true →
    decode s.fetch = .emitb0 ∧
    ∃ u, PutsEvent (0b1000000000000#13 ++ lowSix 17 s) s u ∧ u.eidx = 0 ∧ u.phase = s.phase ∧ u.cnt = s.cnt ∧
      u.cause = s.cause ∧ SameSlots s u ∧ SameReceive s u ∧ SameSurroundings s u ∧ exec .emitb0 s = exec .stop u

/-- EMITK5 to EMITK0: each transfers the word of its knob, made of its two slots, and moves eidx on. Formalises R131, R132, R133, R134, R135, R136. -/
def Obligations.KnobEmitsTransferTheScaledPair : Prop :=
  EmitsAndMovesOn .emitk5 0 1 (fun s => 0b0101#4 ++ scale (pairRaw 0 1 s)) ∧
  EmitsAndMovesOn .emitk4 1 2 (fun s => 0b0100#4 ++ scale (pairRaw 2 3 s)) ∧
  EmitsAndMovesOn .emitk3 2 3 (fun s => 0b0011#4 ++ scale (pairRaw 4 5 s)) ∧
  EmitsAndMovesOn .emitk2 3 4 (fun s => 0b0010#4 ++ scale (pairRaw 6 7 s)) ∧
  EmitsAndMovesOn .emitk1 4 5 (fun s => 0b0001#4 ++ scale (pairRaw 8 9 s)) ∧
  EmitsAndMovesOn .emitk0 5 6 (fun s => 0b0000#4 ++ scale (pairRaw 10 11 s))

/-- EMITB5 to EMITB1: each transfers the word of its output, made of bits 5:0 of its slot, and moves eidx on. Formalises R137, R138, R139, R140, R141. -/
def Obligations.RowEmitsTransferTheSixFlags : Prop :=
  EmitsAndMovesOn .emitb5 6 7 (fun s => 0b1101000000000#13 ++ lowSix 12 s) ∧
  EmitsAndMovesOn .emitb4 7 8 (fun s => 0b1100000000000#13 ++ lowSix 13 s) ∧
  EmitsAndMovesOn .emitb3 8 9 (fun s => 0b1011000000000#13 ++ lowSix 14 s) ∧
  EmitsAndMovesOn .emitb2 9 10 (fun s => 0b1010000000000#13 ++ lowSix 15 s) ∧
  EmitsAndMovesOn .emitb1 10 11 (fun s => 0b1001000000000#13 ++ lowSix 16 s)

/-- EMITB0: the twelfth event, then SEEKING, or HALTED with cause 1 if stop_req is 1. Formalises R142. -/
def Obligations.Emitb0TransfersTheLastEventAndEndsTheFrame : Prop :=
  (∀ s t : State, s.phase = .dispatch → step s = .next t → t.phase ≠ .dispatch →
    s.edge.rst = true ∨ decode s.fetch = .emitb0) ∧
  ∀ s : State,
    (decode s.fetch = .emitb0 ↔ s.edge.rst = false ∧ s.phase = .dispatch ∧ s.edge.evReady = true ∧ s.eidx = 11) ∧
    ∃ t, exec .emitb0 s = .next t ∧ PutsEvent (0b1000000000000#13 ++ lowSix 17 s) s t ∧ t.eidx = 0 ∧ t.cnt = s.cnt ∧
      SameSlots s t ∧ SameReceive s t ∧ SameSurroundings s t ∧
      (s.edge.stopReq = false → t.phase = .seeking ∧ t.cause = s.cause) ∧
      (s.edge.stopReq = true → t.phase = .halted ∧ t.cause = .stopped)

/-- In DISPATCH the offered word is W(eidx); with a ready sink it is transferred and eidx advances. Formalises R130. -/
def Obligations.ReadySinkGetsTheOfferedWord : Prop :=
  (∀ s : State, s.phase = .dispatch → s.evWord = eventWord s.fb s.eidx) ∧
  (∀ (fb : Vector Byte 18) (e : Fin 12) (h : e.val < 6), eventWord fb e =
    0#1 ++ BitVec.ofNat 3 (5 - e.val) ++ scale ((fb[2 * e.val + 1].setWidth 15 <<< 7) ||| fb[2 * e.val].setWidth 15)) ∧
  (∀ (fb : Vector Byte 18) (e : Fin 12), 6 ≤ e.val → eventWord fb e =
    1#1 ++ BitVec.ofNat 3 (11 - e.val) ++ 0#9 ++ fb[e.val + 6].extractLsb' 0 6) ∧
  (∀ (s : State) (e : Fin 12), decode s.fetch = emitOf e → s.phase = .dispatch ∧ s.eidx = e ∧ s.edge.evReady = true) ∧
  ∀ s : State, s.edge.rst = false → s.phase = .dispatch → s.edge.evReady = true →
    decode s.fetch = emitOf s.eidx ∧
    ∃ t, exec (emitOf s.eidx) s = .next t ∧ PutsEvent (eventWord s.fb s.eidx) s t ∧ SameSlots s t ∧ t.cnt = s.cnt ∧
      (s.eidx.val ≤ 10 → t.eidx.val = s.eidx.val + 1 ∧ t.phase = s.phase ∧ t.cause = s.cause) ∧
      (s.eidx = 11 → s.edge.stopReq = false → t.eidx = 0 ∧ t.phase = .seeking ∧ t.cause = s.cause)

/-- A word offered and not taken stays offered unchanged; only RESET withdraws it. Formalises R49. -/
def Obligations.OfferedWordIsHeldUntilTaken : Prop :=
  (∀ s : State, (s.evValid = true ↔ s.phase = .dispatch) ∧ (s.evValid = true → s.evWord = eventWord s.fb s.eidx)) ∧
  (∀ s : State, s.phase = .dispatch → s.edge.rst = false → s.edge.evReady = false →
    ∃ t, step s = .next t ∧ t.evValid = true ∧ t.evWord = s.evWord) ∧
  ∀ s t : State, s.phase = .dispatch → step s = .next t → t.evValid = false →
    s.edge.rst = true ∨ PutsEvent s.evWord s t

/-- The decoder selects by the first row of the 25-row table; rows 2 to 25 are mutually exclusive and total. Formalises R74. -/
def Obligations.DecodeIsTheFirstRowOfTheSelectionTable : Prop :=
  (∀ f : Fetch, firstRow f selectTable = some (decode f)) ∧
  (∀ f : Fetch, (selectTable.drop 1).countP (fun r => r.holds f) = 1) ∧
  selectTable.map SelectRow.no = List.range' 1 25

/-- Seeking, 0xC0 is SYNC and the other 255 values SKIP; reading, every value is CAPT or CAPTL according to cnt. Formalises R75. -/
def Obligations.EveryByteValueDecodes : Prop :=
  (∀ cnt : Fin 18, decodeByte .seeking cnt 0xC0#8 = .ok .sync) ∧
  (∀ (cnt : Fin 18) (b : Byte), b ≠ 0xC0#8 → decodeByte .seeking cnt b = .ok (.skip b)) ∧
  (∀ (slot : Fin 17) (b : Byte), decodeByte .readingFrame slot.castSucc b = .ok (.capt slot b)) ∧
  ∀ b : Byte, decodeByte .readingFrame 17 b = .ok (.captl b)

/-- Decoding the encoded condition of a well-formed operation gives it back, and event words and events correspond one to one. Rests on 30_encoding.md section 3, 30_encoding.md section 6. STOP, never performed alone, is not well-formed by itself (log 7): its condition, row 23, decodes to EMITB0. -/
def Obligations.DecodeAndEncodeAgree : Prop :=
  (∀ i : Instr, i.wf = true → decode (encode i) = i) ∧
  (∀ f : Fetch, drawFits Config.rxqDepth f.drop = true → (decode f).wf = true) ∧
  decode (encode .stop) = .emitb0 ∧
  (∀ e : Event, decodeEvent e.toWord = .ok e) ∧
  ∀ (w : EvWord) (e : Event), decodeEvent w = .ok e → e.toWord = w

/-- The twelve event-word patterns: each EMIT's word has its pattern, and a word of a pattern decodes to its EMIT. Rests on 30_encoding.md section 6, 30_encoding.md section 7. -/
def Obligations.EventPatternsSelectTheirEmit : Prop :=
  (∀ (fb : Vector Byte 18) (e : Fin 12), e.val < 6 →
    eventWord fb e &&& 0x78000#19 = BitVec.ofNat 19 (0x28000 - 0x8000 * e.val)) ∧
  (∀ (fb : Vector Byte 18) (e : Fin 12), 6 ≤ e.val →
    eventWord fb e &&& 0x7FFC0#19 = BitVec.ofNat 19 (0x68000 - 0x8000 * (e.val - 6))) ∧
  (∀ (w : EvWord) (e : Fin 12), e.val < 6 → w &&& 0x78000#19 = BitVec.ofNat 19 (0x28000 - 0x8000 * e.val) →
    decodeEventWord w = .ok (emitOf e)) ∧
  (∀ (w : EvWord) (e : Fin 12), 6 ≤ e.val → w &&& 0x7FFC0#19 = BitVec.ofNat 19 (0x68000 - 0x8000 * (e.val - 6)) →
    decodeEventWord w = .ok (emitOf e)) ∧
  ∀ (w : EvWord) (i : Instr), decodeEventWord w = .ok i → ∃ e : Fin 12, i = emitOf e ∧
    ((e.val < 6 ∧ w &&& 0x78000#19 = BitVec.ofNat 19 (0x28000 - 0x8000 * e.val)) ∨
     (6 ≤ e.val ∧ w &&& 0x7FFC0#19 = BitVec.ofNat 19 (0x68000 - 0x8000 * (e.val - 6))))

/-- The raw word bit by bit: bits 6:0 from the low byte, bit 7 the OR of two bits, bits 14:8 from the high byte. Formalises R76. -/
def Obligations.RawWordBitByBit : Prop :=
  ∀ lo hi : Byte,
    (∀ k : Nat, k < 7 → (rawWord lo hi).getLsbD k = lo.getLsbD k) ∧
    (rawWord lo hi).getLsbD 7 = (hi.getLsbD 0 || lo.getLsbD 7) ∧
    ∀ k : Nat, 8 ≤ k → k ≤ 14 → (rawWord lo hi).getLsbD k = hi.getLsbD (k - 7)

/-- The six flags of a row byte, by masks 32, 16, 8, 4, 2, 1, are its bits 5 down to 0; bits 7 and 6 have no effect. Formalises R80. -/
def Obligations.RowFlagsAreBitsFiveDownToZero : Prop :=
  (∀ b : Byte, (rowFlags b).length = 6 ∧
    (∀ t : Nat, t < 6 → (rowFlags b)[t]? = some (b.getLsbD (5 - t))) ∧
    (∀ t : Nat, t < 6 → (rowFlags b)[t]? = some (decide (b &&& BitVec.ofNat 8 (2 ^ (5 - t)) = BitVec.ofNat 8 (2 ^ (5 - t))))) ∧
    connections (rowConn b) = rowFlags b) ∧
  ∀ b c : Byte, b.extractLsb' 0 6 = c.extractLsb' 0 6 → rowFlags b = rowFlags c

/-- The block's range-mapper is the identity on the 15 bits and exact: the field over 1024 is v/1024. Formalises R104. -/
def Obligations.TheInstanceOfScaleIsTheIdentity : Prop :=
  ∀ raw : RawWord, scale raw = raw ∧ exactValue Config.scaler raw.toNat = (raw.toNat : ℚ) / 1024 ∧
    (scaleInt Config.scaler raw.toNat : ℚ) = exactValue Config.scaler raw.toNat * 2 ^ Config.valF ∧
    mulAdd 1 0 0 raw.toNat = raw.toNat

/-- The integer computation of the range-mapper is the floor of the exact value times 2^VAL_F. Rests on 40_scaler.md section 2. The common denominator of the interval ends is the model's, log 14. -/
def Obligations.ScalerRoundsTheExactValueDown : Prop :=
  ∀ (c : ScalerConfig) (v : Nat), c.den ≠ 0 → c.srcEnd ≠ c.srcBeg →
    scaleInt c v = ⌊exactValue c v * 2 ^ c.valF⌋

/-- Building the range-mapper refuses a zero-width source interval and any configuration with an output that does not fit. Rests on 40_scaler.md section 2, 60_exceptions.md section 1. den is the model's, log 14. -/
def Obligations.BuildAdmitsExactlyTheFittingConfigurations : Prop :=
  ∀ c : ScalerConfig, c.den ≠ 0 →
    ((∃ m, buildScaler c = .ok m) ↔
      c.srcEnd ≠ c.srcBeg ∧ ∀ v : Nat, v ≤ 32767 → fitsField c (scaleInt c v) = true) ∧
    (c.srcEnd = c.srcBeg → buildScaler c = .error .zeroSourceWidth)

/-- Where gain and offset are dyadic the multiply-add form computes the range-mapper. Rests on 40_scaler.md section 2. -/
def Obligations.MultiplyAddFormComputesTheSame : Prop :=
  ∀ (c : ScalerConfig) (m a : Int) (sh : Nat), c.den ≠ 0 → c.srcEnd ≠ c.srcBeg →
    ((c.dstEnd - c.dstBeg : Int) : ℚ) / ((c.srcEnd - c.srcBeg : Int) : ℚ) * 2 ^ c.valF = (m : ℚ) / 2 ^ sh →
    ((c.dstBeg : ℚ) / c.den - (c.srcBeg : ℚ) / c.den * (((c.dstEnd - c.dstBeg : Int) : ℚ) / ((c.srcEnd - c.srcBeg : Int) : ℚ)))
      * 2 ^ (c.valF + sh) = (a : ℚ) →
    ∀ v : Nat, scaleInt c v = mulAdd m a sh v

/-- rx_ready is 1 exactly while a byte is awaited; st_phase and st_cause show phase and cause in their encodings. Rests on 20_memory.md section 3, 10_state.md section 4, 92_eei_decisions.md D2. -/
def Obligations.RxReadyFollowsPhaseAndStatusShowsPhaseAndCause : Prop :=
  (∀ s : State, s.rxReady = true ↔ s.phase = .seeking ∨ s.phase = .readingFrame) ∧
  (∀ s : State, (s.phase = .seeking → s.stPhase = 0#3) ∧ (s.phase = .readingFrame → s.stPhase = 1#3) ∧
    (s.phase = .flush → s.stPhase = 2#3) ∧ (s.phase = .dispatch → s.stPhase = 3#3) ∧ (s.phase = .halted → s.stPhase = 4#3)) ∧
  (∀ s : State, (s.cause = .none → s.stCause = 0#2) ∧ (s.cause = .stopped → s.stCause = 1#2) ∧
    (s.cause = .transportRead → s.stCause = 2#2)) ∧
  ∀ s t : State, step s = .next t → s.rxReady = false → s.edge.rst = false → t.run.taken = s.run.taken

/-- From every state a step answers a next state: no input and no position stops the block. Rests on 30_encoding.md section 3, 60_exceptions.md section 4. -/
def Obligations.EveryEdgePerformsAnOperation : Prop :=
  ∀ s : State, ∃ t, step s = .next t

/-- Every step keeps: HALTED exactly with a cause; cnt 0 outside READING_FRAME and HALTED; eidx 0 outside DISPATCH. Rests on 10_state.md section 4. -/
def Obligations.SequencerInvariantIsKept : Prop :=
  ∀ s t : State, SequencerInv s → step s = .next t → SequencerInv t

/-- Every step keeps: the events transferred and pending are those of the frames of the consumed bytes, slot i the i-th byte after the marker. Rests on 20_memory.md section 6, 20_memory.md section 12, 42_frame_reader.md section 1. The spec marks this as derived: 'The event stream as a function of C'; the records of the streams are the model's, log 10. -/
def Obligations.StreamInvariantIsKept : Prop :=
  ∀ s t : State, StreamInv s → step s = .next t → StreamInv t

/-- Reading byte by byte finds the frames of: drop up to and including the first 0xC0, take the next 18, repeat. Rests on 20_memory.md section 6. -/
def Obligations.ScanFindsTheFramesOfTheSentence : Prop :=
  ∀ c : List Byte, (scan c).frames = framesOf c

/-- Two states that differ only in slots not captured for the frame in hand go on to states that differ only so. Rests on 10_state.md section 2, 41_frame_decoder.md section 3. -/
def Obligations.SlotsNotCapturedNeverMatter : Prop :=
  ∀ s t s' : State, AgreeUpToUnread s t → step s = .next s' → ∃ t', step t = .next t' ∧ AgreeUpToUnread s' t' 

/-- Without RESET a slot changes only in READING_FRAME, only slot cnt, and then it holds the byte taken. Rests on 10_state.md section 2, 42_frame_reader.md section 3. -/
def Obligations.SlotsChangeOnlyByCapture : Prop :=
  ∀ s t : State, s.edge.rst = false → step s = .next t →
    (s.phase ≠ .readingFrame → SameSlots s t) ∧ (s.rxOffer = none → SameSlots s t) ∧
    (∀ i : Fin 18, i ≠ s.cnt → t.slot i = s.slot i) ∧
    (∀ b : Byte, s.phase = .readingFrame → s.rxOffer = some b → t.slot s.cnt = b) ∧
    ∀ i : Fin 18, t.slot i ≠ s.slot i → s.phase = .readingFrame ∧ i = s.cnt ∧
      ∃ b, s.rxOffer = some b ∧ t.slot i = b ∧ TakesByte b s t

/-- In HALTED without RESET nothing changes, whatever the inputs; with RESET the block seeks again with no cause. Rests on 60_exceptions.md section 4, 10_state.md section 4. -/
def Obligations.OnlyResetLeavesHalted : Prop :=
  ∀ s : State, s.phase = .halted →
    (s.edge.rst = false → ∃ t, step s = .next t ∧ SameSequencer s t ∧ SameSlots s t ∧ SameReceive s t ∧ SameEvents s t) ∧
    (s.edge.rst = true → ∃ t, step s = .next t ∧ t.phase = .seeking ∧ t.cnt = 0 ∧ t.eidx = 0 ∧ t.cause = .none)

/-- cause changes only by STOP, the fault entry and RESET; nothing reads it; once set it keeps its value until reset. Formalises R27. -/
def Obligations.CauseIsWrittenOnlyByStopFaultAndReset : Prop :=
  (∀ s t : State, SequencerInv s → s.edge.rst = false → s.cause ≠ .none → step s = .next t → t.cause = s.cause) ∧
  (∀ s t : State, step s = .next t → t.cause ≠ s.cause →
    (s.edge.rst = true ∧ t.cause = .none) ∨
    (s.edge.rst = false ∧ s.phase = .dispatch ∧ s.eidx = 11 ∧ s.edge.evReady = true ∧ s.edge.stopReq = true ∧ t.cause = .stopped) ∨
    (decode s.fetch = .rxerr ∧ t.cause = .transportRead)) ∧
  (∀ (s t : State) (c : Cause), step s = .next t → ∃ u, step { s with cause := c } = .next u ∧ u.phase = t.phase ∧
    u.cnt = t.cnt ∧ u.eidx = t.eidx ∧ SameSlots t u ∧ u.rx = t.rx ∧ u.run = t.run) ∧
  causeCode .none = 0#2 ∧ causeCode .stopped = 1#2 ∧ causeCode .transportRead = 2#2

/-- stop_req has no effect at any edge but the one at which the twelfth event is transferred. Rests on 43_control.md (STOP), 20_memory.md section 5. -/
def Obligations.StopRequestIsSampledOnlyAtTheTwelfthTransfer : Prop :=
  ∀ (s : State) (e : Edge) (es : List Edge) (b : Bool), s.inputs = e :: es →
    ¬ (e.rst = false ∧ s.phase = .dispatch ∧ s.eidx = 11 ∧ e.evReady = true) →
    step { s with inputs := { e with stopReq := b } :: es } = step s

/-- rx_err has no effect unless the block waits for a byte with none offered: an offered byte wins, other phases ignore it. Rests on 20_memory.md section 3, 60_exceptions.md section 3. -/
def Obligations.ReadFailureIsSeenOnlyWhileWaiting : Prop :=
  ∀ (s : State) (e : Edge) (es : List Edge) (b : Bool), s.inputs = e :: es →
    ¬ (e.rst = false ∧ (s.phase = .seeking ∨ s.phase = .readingFrame) ∧ s.rxOffer = none) →
    step { s with inputs := { e with rxErr := b } :: es } = step s

/-- A step that changes the phase is one of RESET, SYNC, CAPTL, FLUSH, EMITB0, RXERR, with the from and to of the transition table. Rests on 42_frame_reader.md section 4. -/
def Obligations.OnlyTheNamedOperationsChangeThePhase : Prop :=
  ∀ s t : State, step s = .next t → t.phase ≠ s.phase →
    (decode s.fetch = .reset ∧ s.edge.rst = true ∧ t.phase = .seeking) ∨
    (decode s.fetch = .sync ∧ s.phase = .seeking ∧ t.phase = .readingFrame) ∨
    (∃ b, decode s.fetch = .captl b ∧ s.phase = .readingFrame ∧ s.cnt = 17 ∧ t.phase = .flush) ∨
    (∃ q, decode s.fetch = .flush q ∧ s.phase = .flush ∧ t.phase = .dispatch) ∨
    (decode s.fetch = .emitb0 ∧ s.phase = .dispatch ∧ s.eidx = 11 ∧ t.phase = if s.edge.stopReq then .halted else .seeking) ∨
    (decode s.fetch = .rxerr ∧ (s.phase = .seeking ∨ s.phase = .readingFrame) ∧ t.phase = .halted)

/-- The receive stream loses its head to a capture, skip or sync, or its next q bytes to FLUSH, and nothing else. Rests on 20_memory.md section 3, 20_memory.md section 9. -/
def Obligations.BytesLeaveTheStreamInOrder : Prop :=
  ∀ s t : State, s.edge.rst = false → step s = .next t →
    (SameReceive s t) ∨
    (∃ b, s.rxReady = true ∧ s.rxOffer = some b ∧ s.rx = b :: t.rx ∧ t.run.taken = s.run.taken ++ [b]) ∨
    (s.phase = .flush ∧ t.rx = s.rx.drop s.edge.drop ∧ t.run.taken = s.run.taken)

/-- An event is transferred exactly at an edge with rst 0, ev_valid 1 and ev_ready 1, once, and is never taken back. Rests on 20_memory.md section 4, 20_memory.md section 9. -/
def Obligations.EventsAreOnlyEverAppended : Prop :=
  ∀ s t : State, step s = .next t →
    t.eventStream = s.eventStream ++
      (if s.edge.rst = false ∧ s.evValid = true ∧ s.edge.evReady = true then [s.evWord] else [])

/-- A frame's twelve words are knob 5, 4, 3, 2, 1, 0, output 5, 4, 3, 2, 1, 0, each with its value, whatever the bytes. Formalises R120, R125. -/
def Obligations.TwelveEventsInTheFixedOrder : Prop :=
  (∀ fb : Vector Byte 18, (frameEvents fb).map decodeEvent =
    [ .ok (.knob 5 (rawWord fb[0] fb[1])), .ok (.knob 4 (rawWord fb[2] fb[3])), .ok (.knob 3 (rawWord fb[4] fb[5])),
      .ok (.knob 2 (rawWord fb[6] fb[7])), .ok (.knob 1 (rawWord fb[8] fb[9])), .ok (.knob 0 (rawWord fb[10] fb[11])),
      .ok (.bay 5 (fb[12].extractLsb' 0 6)), .ok (.bay 4 (fb[13].extractLsb' 0 6)), .ok (.bay 3 (fb[14].extractLsb' 0 6)),
      .ok (.bay 2 (fb[15].extractLsb' 0 6)), .ok (.bay 1 (fb[16].extractLsb' 0 6)), .ok (.bay 0 (fb[17].extractLsb' 0 6)) ]) ∧
  ∀ s t : State, s.phase = .dispatch → s.edge.rst = false → s.edge.evReady = true → step s = .next t →
    (∃ w, (frameEvents s.fb)[s.eidx.val]? = some w ∧ PutsEvent w s t) ∧ (s.eidx.val ≤ 10 → t.eidx.val = s.eidx.val + 1)

/-- In DISPATCH, however long the sink stalls between, as many servings as events are left bring them all out in order. Rests on 20_memory.md section 4, 70_reset_and_hazards.md section 4. -/
def Obligations.AServedFrameIsDispatchedInFull : Prop :=
  ∀ (s : State) (es : List Edge) (last : Edge) (rest : List Edge), s.phase = .dispatch → s.inputs = es ++ last :: rest →
    (∀ e ∈ es, e.rst = false) → last.serves = true → servings es + s.eidx.val = 11 →
    ∃ t, afterEdges (es.length + 1) s = .next t ∧
      t.run.events = s.run.events ++ (eventOrder.drop s.eidx.val).map (eventWord s.fb) ∧ SameReceive s t ∧ SameSlots s t ∧
      t.eidx = 0 ∧ t.cnt = s.cnt ∧ t.inputs = rest ∧
      (last.stopReq = false → t.phase = .seeking ∧ t.cause = s.cause) ∧
      (last.stopReq = true → t.phase = .halted ∧ t.cause = .stopped)

/-- From SEEKING, a marker and any 18 bytes offered at 19 edges, one FLUSH edge and 12 servings give the frame's twelve events. Rests on 42_frame_reader.md section 4, 41_frame_decoder.md section 3. -/
def Obligations.OneFrameTakesThirtyTwoEdges : Prop :=
  ∀ (s : State) (body more : List Byte) (takes : List Edge) (drop : Edge) (serves : List Edge) (last : Edge) (rest : List Edge),
    s.phase = .seeking → s.rx = 0xC0#8 :: (body ++ more) → body.length = 18 →
    s.inputs = takes ++ drop :: (serves ++ last :: rest) → takes.length = 19 → (∀ e ∈ takes, e.offers = true) →
    drop.rst = false → serves.length = 11 → (∀ e ∈ serves, e.serves = true) → last.serves = true → last.stopReq = false →
    ∃ t, afterEdges 32 s = .next t ∧ t.run.events = s.run.events ++ frameEvents (bodyOf body) ∧
      t.run.taken = s.run.taken ++ 0xC0#8 :: body ∧ (∀ i : Fin 18, body[i.val]? = some (t.slot i)) ∧ t.phase = .seeking ∧
      t.cnt = 0 ∧ t.eidx = 0 ∧ t.cause = s.cause ∧ t.rx = more.drop drop.drop ∧ t.inputs = rest

/-- From SEEKING, n bytes none of which is 0xC0 cause n SKIPs and leave the block as it was. Rests on 42_frame_reader.md section 5. -/
def Obligations.StrayBytesAreSkippedOneByOne : Prop :=
  ∀ (s : State) (stray more : List Byte) (es rest : List Edge), s.phase = .seeking → s.rx = stray ++ more →
    (∀ b ∈ stray, b ≠ 0xC0#8) → s.inputs = es ++ rest → es.length = stray.length → (∀ e ∈ es, e.offers = true) →
    ∃ t, afterEdges stray.length s = .next t ∧ SameSequencer s t ∧ SameSlots s t ∧ SameEvents s t ∧ t.rx = more ∧
      t.run.taken = s.run.taken ++ stray ∧ t.inputs = rest

/-- Decoding a SNAP frame gives back KNOB n k<n> and BAY n with the bits of r<n>. Rests on 30_encoding.md section 9. -/
def Obligations.SnapshotFramesReadBack : Prop :=
  ∀ (k : Fin 6 → BitVec 14) (r : Fin 6 → BitVec 6),
    framesOf (snap k r) = [snapBody k r] ∧
    frameEvents (bodyOf (snapBody k r)) =
      ([5, 4, 3, 2, 1, 0].map fun n : Fin 6 => (Event.knob n ((k n).setWidth 15)).toWord) ++
      ([5, 4, 3, 2, 1, 0].map fun n : Fin 6 => (Event.bay n (r n)).toWord)

/-- From a 7-bit-clean device every frame decoded is a frame it sent, whatever stands between its frames and wherever in its stream the block starts. Rests on 70_reset_and_hazards.md section 2, 70_reset_and_hazards.md section 3, 30_encoding.md section 2. -/
def Obligations.CleanDevicesAreNeverFalselySynchronized : Prop :=
  ∀ (segments : List Segment) (after : List Byte) (n : Nat),
    (∀ g ∈ segments, (∀ b ∈ g.gap, b ≠ 0xC0#8) ∧ cleanBody g.body = true) → (∀ b ∈ after, b ≠ 0xC0#8) →
    framesOf ((segments.flatMap Segment.bytes ++ after).drop n) <:+ segments.map Segment.body

/-- phase in 3 bits, cnt in 5, eidx in 4 and cause in 2 hold every value whole, and hold no encoding the spec calls unreachable. Rests on 00_scope.md section 4, 10_state.md section 3, 10_state.md section 4. -/
def Obligations.RegistersHoldEveryValueInTheirWidths : Prop :=
  (∀ c : Fin 18, ((cntCode c : BitVec 5)).toNat = c.val ∧ (cntCode c).toNat ≤ 17) ∧
  (∀ e : Fin 12, ((eidxCode e : BitVec 4)).toNat = e.val ∧ (eidxCode e).toNat ≤ 11) ∧
  (∀ p : Phase, ((phaseCode p : BitVec 3)).toNat ≤ 4) ∧ (∀ c : Cause, ((causeCode c : BitVec 2)).toNat ≤ 2) ∧
  (∀ s t : State, s.positionWords = t.positionWords → s.stCause = t.stCause → SameSequencer s t) ∧
  ∀ s : State, s.stPhase = s.positionWords.1 ∧ s.stCause = causeCode s.cause
end

