-- ==== Sys2Proof/Laws/State.lean ====
section
/-! SUPPORT. What each named update of the state does to each field: one lemma per field per update, so that no later proof
unfolds a record update. -/

namespace Sys2Proof.Machine

@[simp] theorem State.rxTake_fb (s : State) (b : Byte) : (s.rxTake b).fb = s.fb := rfl
@[simp] theorem State.rxTake_phase (s : State) (b : Byte) : (s.rxTake b).phase = s.phase := rfl
@[simp] theorem State.rxTake_cnt (s : State) (b : Byte) : (s.rxTake b).cnt = s.cnt := rfl
@[simp] theorem State.rxTake_eidx (s : State) (b : Byte) : (s.rxTake b).eidx = s.eidx := rfl
@[simp] theorem State.rxTake_cause (s : State) (b : Byte) : (s.rxTake b).cause = s.cause := rfl
@[simp] theorem State.rxTake_rx (s : State) (b : Byte) : (s.rxTake b).rx = s.rx.tail := rfl
@[simp] theorem State.rxTake_inputs (s : State) (b : Byte) : (s.rxTake b).inputs = s.inputs := rfl
@[simp] theorem State.rxTake_past (s : State) (b : Byte) : (s.rxTake b).past = s.past := rfl
@[simp] theorem State.rxTake_draw (s : State) (b : Byte) : (s.rxTake b).draw = s.draw := rfl
@[simp] theorem State.rxTake_taken (s : State) (b : Byte) : (s.rxTake b).run.taken = s.run.taken ++ [b] := rfl
@[simp] theorem State.rxTake_events (s : State) (b : Byte) : (s.rxTake b).run.events = s.run.events := rfl

@[simp] theorem State.rxDiscard_fb (s : State) (q : Nat) : (s.rxDiscard q).fb = s.fb := rfl
@[simp] theorem State.rxDiscard_phase (s : State) (q : Nat) : (s.rxDiscard q).phase = s.phase := rfl
@[simp] theorem State.rxDiscard_cnt (s : State) (q : Nat) : (s.rxDiscard q).cnt = s.cnt := rfl
@[simp] theorem State.rxDiscard_eidx (s : State) (q : Nat) : (s.rxDiscard q).eidx = s.eidx := rfl
@[simp] theorem State.rxDiscard_cause (s : State) (q : Nat) : (s.rxDiscard q).cause = s.cause := rfl
@[simp] theorem State.rxDiscard_rx (s : State) (q : Nat) : (s.rxDiscard q).rx = s.rx.drop q := rfl
@[simp] theorem State.rxDiscard_inputs (s : State) (q : Nat) : (s.rxDiscard q).inputs = s.inputs := rfl
@[simp] theorem State.rxDiscard_past (s : State) (q : Nat) : (s.rxDiscard q).past = s.past := rfl
@[simp] theorem State.rxDiscard_draw (s : State) (q : Nat) : (s.rxDiscard q).draw = s.draw := rfl
@[simp] theorem State.rxDiscard_taken (s : State) (q : Nat) : (s.rxDiscard q).run.taken = s.run.taken := rfl
@[simp] theorem State.rxDiscard_events (s : State) (q : Nat) : (s.rxDiscard q).run.events = s.run.events := rfl

@[simp] theorem State.evPut_fb (s : State) (w : EvWord) : (s.evPut w).fb = s.fb := rfl
@[simp] theorem State.evPut_phase (s : State) (w : EvWord) : (s.evPut w).phase = s.phase := rfl
@[simp] theorem State.evPut_cnt (s : State) (w : EvWord) : (s.evPut w).cnt = s.cnt := rfl
@[simp] theorem State.evPut_eidx (s : State) (w : EvWord) : (s.evPut w).eidx = s.eidx := rfl
@[simp] theorem State.evPut_cause (s : State) (w : EvWord) : (s.evPut w).cause = s.cause := rfl
@[simp] theorem State.evPut_rx (s : State) (w : EvWord) : (s.evPut w).rx = s.rx := rfl
@[simp] theorem State.evPut_inputs (s : State) (w : EvWord) : (s.evPut w).inputs = s.inputs := rfl
@[simp] theorem State.evPut_past (s : State) (w : EvWord) : (s.evPut w).past = s.past := rfl
@[simp] theorem State.evPut_draw (s : State) (w : EvWord) : (s.evPut w).draw = s.draw := rfl
@[simp] theorem State.evPut_taken (s : State) (w : EvWord) : (s.evPut w).run.taken = s.run.taken := rfl
@[simp] theorem State.evPut_events (s : State) (w : EvWord) : (s.evPut w).run.events = s.run.events ++ [w] := rfl

@[simp] theorem State.setSlot_fb (s : State) (i : Slot) (b : Byte) : (s.setSlot i b).fb = s.fb.set i.val b := rfl
@[simp] theorem State.setSlot_phase (s : State) (i : Slot) (b : Byte) : (s.setSlot i b).phase = s.phase := rfl
@[simp] theorem State.setSlot_cnt (s : State) (i : Slot) (b : Byte) : (s.setSlot i b).cnt = s.cnt := rfl
@[simp] theorem State.setSlot_eidx (s : State) (i : Slot) (b : Byte) : (s.setSlot i b).eidx = s.eidx := rfl
@[simp] theorem State.setSlot_cause (s : State) (i : Slot) (b : Byte) : (s.setSlot i b).cause = s.cause := rfl
@[simp] theorem State.setSlot_rx (s : State) (i : Slot) (b : Byte) : (s.setSlot i b).rx = s.rx := rfl
@[simp] theorem State.setSlot_inputs (s : State) (i : Slot) (b : Byte) : (s.setSlot i b).inputs = s.inputs := rfl
@[simp] theorem State.setSlot_past (s : State) (i : Slot) (b : Byte) : (s.setSlot i b).past = s.past := rfl
@[simp] theorem State.setSlot_draw (s : State) (i : Slot) (b : Byte) : (s.setSlot i b).draw = s.draw := rfl
@[simp] theorem State.setSlot_taken (s : State) (i : Slot) (b : Byte) : (s.setSlot i b).run.taken = s.run.taken := rfl
@[simp] theorem State.setSlot_events (s : State) (i : Slot) (b : Byte) : (s.setSlot i b).run.events = s.run.events := rfl

@[simp] theorem State.raiseTransportReadError_fb (s : State) : (s.raiseTransportReadError).fb = s.fb := rfl
@[simp] theorem State.raiseTransportReadError_phase (s : State) : (s.raiseTransportReadError).phase = .halted := rfl
@[simp] theorem State.raiseTransportReadError_cnt (s : State) : (s.raiseTransportReadError).cnt = s.cnt := rfl
@[simp] theorem State.raiseTransportReadError_eidx (s : State) : (s.raiseTransportReadError).eidx = s.eidx := rfl
@[simp] theorem State.raiseTransportReadError_cause (s : State) : (s.raiseTransportReadError).cause = .transportRead := rfl
@[simp] theorem State.raiseTransportReadError_rx (s : State) : (s.raiseTransportReadError).rx = s.rx := rfl
@[simp] theorem State.raiseTransportReadError_inputs (s : State) : (s.raiseTransportReadError).inputs = s.inputs := rfl
@[simp] theorem State.raiseTransportReadError_past (s : State) : (s.raiseTransportReadError).past = s.past := rfl
@[simp] theorem State.raiseTransportReadError_draw (s : State) : (s.raiseTransportReadError).draw = s.draw := rfl
@[simp] theorem State.raiseTransportReadError_taken (s : State) : (s.raiseTransportReadError).run.taken = s.run.taken := rfl
@[simp] theorem State.raiseTransportReadError_events (s : State) : (s.raiseTransportReadError).run.events = s.run.events := rfl

@[simp] theorem State.haltStopped_fb (s : State) : (s.haltStopped).fb = s.fb := rfl
@[simp] theorem State.haltStopped_phase (s : State) : (s.haltStopped).phase = .halted := rfl
@[simp] theorem State.haltStopped_cnt (s : State) : (s.haltStopped).cnt = s.cnt := rfl
@[simp] theorem State.haltStopped_eidx (s : State) : (s.haltStopped).eidx = s.eidx := rfl
@[simp] theorem State.haltStopped_cause (s : State) : (s.haltStopped).cause = .stopped := rfl
@[simp] theorem State.haltStopped_rx (s : State) : (s.haltStopped).rx = s.rx := rfl
@[simp] theorem State.haltStopped_inputs (s : State) : (s.haltStopped).inputs = s.inputs := rfl
@[simp] theorem State.haltStopped_past (s : State) : (s.haltStopped).past = s.past := rfl
@[simp] theorem State.haltStopped_draw (s : State) : (s.haltStopped).draw = s.draw := rfl
@[simp] theorem State.haltStopped_taken (s : State) : (s.haltStopped).run.taken = s.run.taken := rfl
@[simp] theorem State.haltStopped_events (s : State) : (s.haltStopped).run.events = s.run.events := rfl

@[simp] theorem State.restart_fb (s : State) : (s.restart).fb = freeFrame s.draw := rfl
@[simp] theorem State.restart_phase (s : State) : (s.restart).phase = .seeking := rfl
@[simp] theorem State.restart_cnt (s : State) : (s.restart).cnt = 0 := rfl
@[simp] theorem State.restart_eidx (s : State) : (s.restart).eidx = 0 := rfl
@[simp] theorem State.restart_cause (s : State) : (s.restart).cause = .none := rfl
@[simp] theorem State.restart_rx (s : State) : (s.restart).rx = s.rx := rfl
@[simp] theorem State.restart_inputs (s : State) : (s.restart).inputs = s.inputs := rfl
@[simp] theorem State.restart_past (s : State) : (s.restart).past = s.past ++ [s.run] := rfl
@[simp] theorem State.restart_draw (s : State) : (s.restart).draw = s.draw := rfl
@[simp] theorem State.restart_taken (s : State) : (s.restart).run.taken = [] := rfl
@[simp] theorem State.restart_events (s : State) : (s.restart).run.events = [] := rfl

@[simp] theorem State.advance_fb (s : State) : (s.advance).fb = s.fb := rfl
@[simp] theorem State.advance_phase (s : State) : (s.advance).phase = s.phase := rfl
@[simp] theorem State.advance_cnt (s : State) : (s.advance).cnt = s.cnt := rfl
@[simp] theorem State.advance_eidx (s : State) : (s.advance).eidx = s.eidx := rfl
@[simp] theorem State.advance_cause (s : State) : (s.advance).cause = s.cause := rfl
@[simp] theorem State.advance_rx (s : State) : (s.advance).rx = s.rx := rfl
@[simp] theorem State.advance_inputs (s : State) : (s.advance).inputs = s.inputs.tail := rfl
@[simp] theorem State.advance_past (s : State) : (s.advance).past = s.past := rfl
@[simp] theorem State.advance_draw (s : State) : (s.advance).draw = s.draw + 1 := rfl
@[simp] theorem State.advance_taken (s : State) : (s.advance).run.taken = s.run.taken := rfl
@[simp] theorem State.advance_events (s : State) : (s.advance).run.events = s.run.events := rfl

@[simp] theorem State.emitKnob_fb (s : State) (j : Fin Config.nKnob) (next : EventIndex) : (s.emitKnob j next).fb = s.fb := rfl
@[simp] theorem State.emitKnob_phase (s : State) (j : Fin Config.nKnob) (next : EventIndex) : (s.emitKnob j next).phase = s.phase := rfl
@[simp] theorem State.emitKnob_cnt (s : State) (j : Fin Config.nKnob) (next : EventIndex) : (s.emitKnob j next).cnt = s.cnt := rfl
@[simp] theorem State.emitKnob_eidx (s : State) (j : Fin Config.nKnob) (next : EventIndex) : (s.emitKnob j next).eidx = next := rfl
@[simp] theorem State.emitKnob_cause (s : State) (j : Fin Config.nKnob) (next : EventIndex) : (s.emitKnob j next).cause = s.cause := rfl
@[simp] theorem State.emitKnob_rx (s : State) (j : Fin Config.nKnob) (next : EventIndex) : (s.emitKnob j next).rx = s.rx := rfl
@[simp] theorem State.emitKnob_inputs (s : State) (j : Fin Config.nKnob) (next : EventIndex) : (s.emitKnob j next).inputs = s.inputs := rfl
@[simp] theorem State.emitKnob_past (s : State) (j : Fin Config.nKnob) (next : EventIndex) : (s.emitKnob j next).past = s.past := rfl
@[simp] theorem State.emitKnob_draw (s : State) (j : Fin Config.nKnob) (next : EventIndex) : (s.emitKnob j next).draw = s.draw := rfl
@[simp] theorem State.emitKnob_taken (s : State) (j : Fin Config.nKnob) (next : EventIndex) : (s.emitKnob j next).run.taken = s.run.taken := rfl
@[simp] theorem State.emitKnob_events (s : State) (j : Fin Config.nKnob) (next : EventIndex) : (s.emitKnob j next).run.events = s.run.events ++ [knobEvent s.fb j] := rfl

@[simp] theorem State.emitBay_fb (s : State) (r : Fin Config.nRow) (next : EventIndex) : (s.emitBay r next).fb = s.fb := rfl
@[simp] theorem State.emitBay_phase (s : State) (r : Fin Config.nRow) (next : EventIndex) : (s.emitBay r next).phase = s.phase := rfl
@[simp] theorem State.emitBay_cnt (s : State) (r : Fin Config.nRow) (next : EventIndex) : (s.emitBay r next).cnt = s.cnt := rfl
@[simp] theorem State.emitBay_eidx (s : State) (r : Fin Config.nRow) (next : EventIndex) : (s.emitBay r next).eidx = next := rfl
@[simp] theorem State.emitBay_cause (s : State) (r : Fin Config.nRow) (next : EventIndex) : (s.emitBay r next).cause = s.cause := rfl
@[simp] theorem State.emitBay_rx (s : State) (r : Fin Config.nRow) (next : EventIndex) : (s.emitBay r next).rx = s.rx := rfl
@[simp] theorem State.emitBay_inputs (s : State) (r : Fin Config.nRow) (next : EventIndex) : (s.emitBay r next).inputs = s.inputs := rfl
@[simp] theorem State.emitBay_past (s : State) (r : Fin Config.nRow) (next : EventIndex) : (s.emitBay r next).past = s.past := rfl
@[simp] theorem State.emitBay_draw (s : State) (r : Fin Config.nRow) (next : EventIndex) : (s.emitBay r next).draw = s.draw := rfl
@[simp] theorem State.emitBay_taken (s : State) (r : Fin Config.nRow) (next : EventIndex) : (s.emitBay r next).run.taken = s.run.taken := rfl
@[simp] theorem State.emitBay_events (s : State) (r : Fin Config.nRow) (next : EventIndex) : (s.emitBay r next).run.events = s.run.events ++ [rowEvent s.fb r] := rfl

end Sys2Proof.Machine
end

