-- ==== Sys2Proof/Laws/Ops.lean ====
section
/-! SUPPORT. What the shared operations can do, once each: slot reads after slot writes, the inputs at an edge, and a step
from the meaning it calls. -/

namespace Sys2Proof.Machine

/-! ## The bounds as numbers (`omega` does not unfold the names of R7) -/

theorem slot_lt (i : Slot) : i.val < 18 := i.isLt
theorem eventIndex_lt (e : EventIndex) : e.val < 12 := e.isLt

/-! ## The slot space -/

@[simp] theorem State.slot_setSlot_same (s : State) (i : Slot) (b : Byte) : (s.setSlot i b).slot i = b := by
  simp [State.slot, State.setSlot]

theorem State.slot_setSlot_other (s : State) (i j : Slot) (b : Byte) (h : j ≠ i) :
    (s.setSlot i b).slot j = s.slot j := by
  have : i.val ≠ j.val := fun e => h (Fin.ext e.symm)
  simp [State.slot, State.setSlot, this]

/-- Two states with the same frame buffer have the same slots. -/
theorem sameSlots_of_fb (s t : State) (h : t.fb = s.fb) : SameSlots s t := by
  intro i; simp [State.slot, h]

/-! ## The inputs at an edge -/

theorem State.edge_cons (s : State) (e : Edge) (es : List Edge) (h : s.inputs = e :: es) : s.edge = e := by
  simp [State.edge, h]

@[simp] theorem State.fetch_phase (s : State) : s.fetch.phase = s.phase := rfl
@[simp] theorem State.fetch_cnt (s : State) : s.fetch.cnt = s.cnt := rfl
@[simp] theorem State.fetch_eidx (s : State) : s.fetch.eidx = s.eidx := rfl
@[simp] theorem State.fetch_rst (s : State) : s.fetch.rst = s.edge.rst := rfl
@[simp] theorem State.fetch_rxOffer (s : State) : s.fetch.rxOffer = s.rxOffer := rfl
@[simp] theorem State.fetch_rxErr (s : State) : s.fetch.rxErr = s.edge.rxErr := rfl
@[simp] theorem State.fetch_evReady (s : State) : s.fetch.evReady = s.edge.evReady := rfl
@[simp] theorem State.fetch_stopReq (s : State) : s.fetch.stopReq = s.edge.stopReq := rfl
@[simp] theorem State.fetch_drop (s : State) : s.fetch.drop = s.edge.drop := rfl

/-- An offered byte is the head of the receive stream (R42, R44). -/
theorem State.rxOffer_head (s : State) (b : Byte) (h : s.rxOffer = some b) : s.rx = b :: s.rx.tail := by
  unfold State.rxOffer at h
  split at h
  · cases hr : s.rx with
    | nil => simp [hr] at h
    | cons a l => simp [hr] at h; simp [h]
  · cases h

/-! ## The words of the registers -/

/-- CNT_W holds every value of `cnt` whole. -/
@[simp] theorem cntCode_toNat (cnt : Slot) : (cntCode cnt).toNat = cnt.val := by revert cnt; decide

/-- EIDX_W holds every value of `eidx` whole. -/
@[simp] theorem eidxCode_toNat (eidx : EventIndex) : (eidxCode eidx).toNat = eidx.val := by revert eidx; decide

/-- The words of two phases differ (R24). -/
theorem phaseCode_injective (a b : Phase) (h : phaseCode a = phaseCode b) : a = b := by
  cases a <;> cases b <;> first | rfl | exact absurd h (by decide)

/-- The words of two causes differ (R27). -/
theorem causeCode_injective (a b : Cause) (h : causeCode a = causeCode b) : a = b := by
  cases a <;> cases b <;> first | rfl | exact absurd h (by decide)

/-! ## The encoders of event words -/

/-- A KNOB word as a number: the id in bits 17:15, the value field below (R82, R83). -/
theorem knobWord_toNat (id : BitVec 3) (val : RawWord) : (knobWord id val).toNat = id.toNat * 2 ^ 15 + val.toNat := by
  have := val.isLt
  have := id.isLt
  simp only [knobWord, BitVec.toNat_append]
  rw [← Nat.shiftLeft_add_eq_or_of_lt (by omega), ← Nat.shiftLeft_add_eq_or_of_lt (by omega)]
  simp [Nat.shiftLeft_eq, Config.rawW]

/-- A BAY word as a number: bit 18, the id in bits 17:15, the connection bits lowest (R82, R84). -/
theorem bayWord_toNat (id : BitVec 3) (conn : BitVec Config.rowBits) :
    (bayWord id conn).toNat = 2 ^ 18 + id.toNat * 2 ^ 15 + conn.toNat := by
  have : conn.toNat < 2 ^ 6 := conn.isLt
  have := id.isLt
  simp only [bayWord, BitVec.toNat_append]
  rw [← Nat.shiftLeft_add_eq_or_of_lt (by omega), ← Nat.shiftLeft_add_eq_or_of_lt (by decide),
    ← Nat.shiftLeft_add_eq_or_of_lt (by omega)]
  simp [Nat.shiftLeft_eq, Config.rowBits]
  omega

/-- `W(e)` of a knob index, with the numbers of R130. -/
theorem eventWord_of_lt (fb : Vector Byte 18) (e : Fin 12) (h : e.val < 6) :
    eventWord fb e = knobWord (BitVec.ofNat 3 (5 - e.val)) (scale (rawWord fb[2 * e.val] fb[2 * e.val + 1])) := by
  have : 6 - (e.val + 1) = 5 - e.val := by omega
  simp [eventWord, h, knobEvent, knobLo, knobHi, Config.knobBase, this]

/-- `W(e)` of a row index, with the numbers of R130. -/
theorem eventWord_of_ge (fb : Vector Byte 18) (e : Fin 12) (h : 6 ≤ e.val) :
    eventWord fb e = bayWord (BitVec.ofNat 3 (11 - e.val)) (rowConn fb[e.val + 6]) := by
  have h1 : 6 - (e.val - 6 + 1) = 11 - e.val := by omega
  have h2 : 12 + (e.val - 6) = e.val + 6 := by omega
  simp [eventWord, Nat.not_lt.2 h, rowEvent, rowSlot, Config.rowBase, h1, h2]

/-- The twelve words of a frame, written out (R126). -/
theorem frameEvents_eq (fb : Vector Byte 18) : frameEvents fb =
    [knobWord 5 (scale (rawWord fb[0] fb[1])),
     knobWord 4 (scale (rawWord fb[2] fb[3])),
     knobWord 3 (scale (rawWord fb[4] fb[5])),
     knobWord 2 (scale (rawWord fb[6] fb[7])),
     knobWord 1 (scale (rawWord fb[8] fb[9])),
     knobWord 0 (scale (rawWord fb[10] fb[11])),
     bayWord 5 (rowConn fb[12]),
     bayWord 4 (rowConn fb[13]),
     bayWord 3 (rowConn fb[14]),
     bayWord 2 (rowConn fb[15]),
     bayWord 1 (rowConn fb[16]),
     bayWord 0 (rowConn fb[17])] := rfl

/-! ## The step -/

/-- A step is the meaning of the decoded operation, then the edge is over. -/
theorem step_next_iff (s u : State) :
    step s = .next u ↔ ∃ t, exec (decode s.fetch) s = .next t ∧ u = t.advance := by
  unfold step
  cases exec (decode s.fetch) s with
  | next t => simp [eq_comm]
  | fault r => cases r
  | refused r => simp

/-- Everything an edge can decode to, with the condition that selects it (R74): the case split every claim about a step
begins with. -/
theorem decode_cases (f : Fetch) :
    (f.rst = true ∧ decode f = .reset) ∨
    (f.rst = false ∧ f.phase = .seeking ∧ f.rxOffer = some Config.marker ∧ decode f = .sync) ∨
    (∃ b, f.rst = false ∧ f.phase = .seeking ∧ f.rxOffer = some b ∧ b ≠ Config.marker ∧ decode f = .skip b) ∨
    (∃ (slot : Fin Config.lastSlot) (b : Byte), f.rst = false ∧ f.phase = .readingFrame ∧ f.rxOffer = some b ∧ f.cnt = slot.castSucc ∧
      decode f = .capt slot b) ∨
    (∃ b, f.rst = false ∧ f.phase = .readingFrame ∧ f.rxOffer = some b ∧ f.cnt = 17 ∧ decode f = .captl b) ∨
    (f.rst = false ∧ (f.phase = .seeking ∨ f.phase = .readingFrame) ∧ f.rxOffer = none ∧ f.rxErr = true ∧
      decode f = .rxerr) ∨
    (f.rst = false ∧ f.phase = .flush ∧ decode f = .flush f.drop) ∨
    (f.rst = false ∧ f.phase = .dispatch ∧ f.evReady = true ∧ decode f = emitOf f.eidx) ∨
    (f.rst = false ∧ ((f.phase = .seeking ∨ f.phase = .readingFrame) ∧ f.rxOffer = none ∧ f.rxErr = false ∨
      f.phase = .dispatch ∧ f.evReady = false ∨ f.phase = .halted) ∧ decode f = .wait) := by
  obtain ⟨phase, cnt, eidx, rst, offer, err, ready, stop, drop⟩ := f
  cases rst with
  | true => left; exact ⟨rfl, rfl⟩
  | false =>
    cases phase with
    | seeking =>
      cases offer with
      | none => cases err <;> simp [decode, decodeNoByte]
      | some b => by_cases hb : b = Config.marker <;> simp [decode, decodeSeeking, hb]
    | readingFrame =>
      cases offer with
      | none => cases err <;> simp [decode, decodeNoByte]
      | some b =>
        by_cases hc : cnt.val < Config.lastSlot
        · have : cnt = (⟨cnt.val, hc⟩ : Fin Config.lastSlot).castSucc := rfl
          right; right; right; left
          exact ⟨⟨cnt.val, hc⟩, b, rfl, rfl, rfl, this, dif_pos hc⟩
        · have : cnt = 17 := Fin.ext (by have : cnt.val < 18 := cnt.isLt; have : ¬ cnt.val < 17 := hc; show cnt.val = 17; omega)
          right; right; right; right; left
          exact ⟨b, rfl, rfl, rfl, this, dif_neg hc⟩
    | flush => simp [decode]
    | dispatch => cases ready <;> simp [decode]
    | halted => simp [decode]

/-- Running `k + 1` edges is one step, then `k` edges. -/
theorem afterEdges_succ (k : Nat) (s t : State) (h : step s = .next t) : afterEdges (k + 1) s = afterEdges k t := by
  have : Sys2Proof.core.step s = .next t := h
  show Sys2Proof.core.run (k + 1) s = Sys2Proof.core.run k t
  simp [Host.Core.run, this]

theorem afterEdges_zero (s : State) : afterEdges 0 s = .next s := rfl

/-- `j` edges and then `k` edges are `j + k` edges. -/
theorem afterEdges_add (j k : Nat) (s t : State) (h : afterEdges j s = .next t) : afterEdges (j + k) s = afterEdges k t := by
  induction j generalizing s with
  | zero => cases h; simp
  | succ j ih =>
    cases hs : step s with
    | next u =>
      rw [afterEdges_succ j s u hs] at h
      rw [Nat.succ_add, afterEdges_succ _ s u hs, ih u h]
    | fault r => cases r
    | refused r =>
      have : Sys2Proof.core.step s = .refused r := hs
      simp [afterEdges, Host.Core.run, this] at h

end Sys2Proof.Machine
end

