-- ==== Sys2Proof/Laws/PerInstr.lean ====
section
/-! SUPPORT. Per operation: the phases in which an edge can decode to it (the table of R24, with RESET in every phase, C12). -/

namespace Sys2Proof.Laws

/-- The "enabled operations" column of R24; RESET is "enabled in every phase and is left out of the table's last column". -/
def EnabledPhase.enabledIn : Phase → Instr → Bool
  | .seeking, .skip _ | .seeking, .sync | .seeking, .rxerr | .seeking, .wait => true
  | .readingFrame, .capt _ _ | .readingFrame, .captl _ | .readingFrame, .rxerr | .readingFrame, .wait => true
  | .flush, .flush _ => true
  | .dispatch, .emitk5 | .dispatch, .emitk4 | .dispatch, .emitk3 | .dispatch, .emitk2 | .dispatch, .emitk1 => true
  | .dispatch, .emitk0 | .dispatch, .emitb5 | .dispatch, .emitb4 | .dispatch, .emitb3 | .dispatch, .emitb2 => true
  | .dispatch, .emitb1 | .dispatch, .emitb0 | .dispatch, .wait => true
  | .halted, .wait => true
  | _, _ => false

/-- What an edge decodes to without `rst` is enabled in its phase, and with `rst` is RESET. -/
def EnabledPhase.Statement (i : Instr) : Prop :=
  ∀ f : Fetch, decode f = i → (f.rst = true ∧ i = .reset) ∨ (f.rst = false ∧ EnabledPhase.enabledIn f.phase i = true)

theorem EnabledPhase.emit_enabled (e : EventIndex) : EnabledPhase.enabledIn .dispatch (emitOf e) = true := by
  revert e; decide

/-- The case split over R74, once. -/
theorem EnabledPhase.decode_enabled (f : Fetch) :
    (f.rst = true ∧ decode f = .reset) ∨ (f.rst = false ∧ EnabledPhase.enabledIn f.phase (decode f) = true) := by
  obtain ⟨phase, cnt, eidx, rst, offer, err, ready, stop, drop⟩ := f
  cases rst with
  | true => left; exact ⟨rfl, rfl⟩
  | false =>
    right
    refine ⟨rfl, ?_⟩
    cases phase with
    | seeking =>
      cases offer with
      | none => cases err <;> rfl
      | some b =>
        show EnabledPhase.enabledIn .seeking (decodeSeeking b) = true
        unfold decodeSeeking; split <;> rfl
    | readingFrame =>
      cases offer with
      | none => cases err <;> rfl
      | some b =>
        show EnabledPhase.enabledIn .readingFrame (decodeBody cnt b) = true
        unfold decodeBody; split <;> rfl
    | flush => rfl
    | dispatch =>
      cases ready with
      | false => rfl
      | true => exact EnabledPhase.emit_enabled eidx
    | halted => rfl

theorem EnabledPhase.of_decode (i : Instr) : EnabledPhase.Statement i := by
  intro f h; subst h; exact EnabledPhase.decode_enabled f

theorem EnabledPhase.reset : EnabledPhase.Statement .reset := EnabledPhase.of_decode _
theorem EnabledPhase.sync : EnabledPhase.Statement .sync := EnabledPhase.of_decode _
theorem EnabledPhase.skip (b : Byte) : EnabledPhase.Statement (.skip b) := EnabledPhase.of_decode _
theorem EnabledPhase.capt (slot : Fin Config.lastSlot) (b : Byte) : EnabledPhase.Statement (.capt slot b) := EnabledPhase.of_decode _
theorem EnabledPhase.captl (b : Byte) : EnabledPhase.Statement (.captl b) := EnabledPhase.of_decode _
theorem EnabledPhase.rxerr : EnabledPhase.Statement .rxerr := EnabledPhase.of_decode _
theorem EnabledPhase.flush (q : Nat) : EnabledPhase.Statement (.flush q) := EnabledPhase.of_decode _
theorem EnabledPhase.emitk5 : EnabledPhase.Statement .emitk5 := EnabledPhase.of_decode _
theorem EnabledPhase.emitk4 : EnabledPhase.Statement .emitk4 := EnabledPhase.of_decode _
theorem EnabledPhase.emitk3 : EnabledPhase.Statement .emitk3 := EnabledPhase.of_decode _
theorem EnabledPhase.emitk2 : EnabledPhase.Statement .emitk2 := EnabledPhase.of_decode _
theorem EnabledPhase.emitk1 : EnabledPhase.Statement .emitk1 := EnabledPhase.of_decode _
theorem EnabledPhase.emitk0 : EnabledPhase.Statement .emitk0 := EnabledPhase.of_decode _
theorem EnabledPhase.emitb5 : EnabledPhase.Statement .emitb5 := EnabledPhase.of_decode _
theorem EnabledPhase.emitb4 : EnabledPhase.Statement .emitb4 := EnabledPhase.of_decode _
theorem EnabledPhase.emitb3 : EnabledPhase.Statement .emitb3 := EnabledPhase.of_decode _
theorem EnabledPhase.emitb2 : EnabledPhase.Statement .emitb2 := EnabledPhase.of_decode _
theorem EnabledPhase.emitb1 : EnabledPhase.Statement .emitb1 := EnabledPhase.of_decode _
theorem EnabledPhase.emitb0 : EnabledPhase.Statement .emitb0 := EnabledPhase.of_decode _
theorem EnabledPhase.stop : EnabledPhase.Statement .stop := EnabledPhase.of_decode _
theorem EnabledPhase.wait : EnabledPhase.Statement .wait := EnabledPhase.of_decode _

end Sys2Proof.Laws
end

