-- ==== Sys2Proof/Laws/Step.lean ====
section
/-! SUPPORT. What each operation answers, and the one inversion of a step: which of eleven things an edge did. Claims about a
step are derived from it, not from unfolding the step. -/

namespace Sys2Proof.Machine

/-! ## What each operation answers -/

@[simp] theorem exec_reset (s : State) : exec .reset s = .next s.restart := rfl
@[simp] theorem exec_sync (s : State) :
    exec .sync s = .next { s.rxTake Config.marker with phase := .readingFrame, cnt := 0 } := rfl
@[simp] theorem exec_skip (b : Byte) (s : State) : exec (.skip b) s = .next (s.rxTake b) := rfl
@[simp] theorem exec_capt (slot : Fin Config.lastSlot) (b : Byte) (s : State) :
    exec (.capt slot b) s = .next { (s.rxTake b).setSlot slot.castSucc b with cnt := slot.succ } := rfl
@[simp] theorem exec_captl (b : Byte) (s : State) :
    exec (.captl b) s = .next { (s.rxTake b).setSlot 17 b with cnt := 0, phase := .flush } := rfl
@[simp] theorem exec_rxerr (s : State) : exec .rxerr s = .next s.raiseTransportReadError := rfl
@[simp] theorem exec_flush (q : Nat) (s : State) :
    exec (.flush q) s = .next { s.rxDiscard q with phase := .dispatch, eidx := 0 } := rfl
@[simp] theorem exec_stop (s : State) : exec .stop s = .next s.haltStopped := rfl
@[simp] theorem exec_wait (s : State) : exec .wait s = .next s := rfl

/-- An EMIT operation is none of the others, and its index is its own. -/
theorem emitOf_injective : ∀ a b : EventIndex, emitOf a = emitOf b → a = b := by decide

/-- The EMIT of index up to 10: the word of that index over the frame buffer, and the next index (R130). -/
theorem exec_emit_before_last (e next : EventIndex) (h : next.val = e.val + 1) (s : State) :
    exec (emitOf e) s = .next { s.evPut (eventWord s.fb e) with eidx := next } := by
  have key : ∀ e : Fin 11, exec (emitOf e.castSucc) s = .next { s.evPut (eventWord s.fb e.castSucc) with eidx := e.succ } := by
    intro e
    match e with
    | 0 => rfl
    | 1 => rfl
    | 2 => rfl
    | 3 => rfl
    | 4 => rfl
    | 5 => rfl
    | 6 => rfl
    | 7 => rfl
    | 8 => rfl
    | 9 => rfl
    | 10 => rfl
  have he : e.val < 11 := by have := eventIndex_lt next; omega
  have hn : next = (⟨e.val, he⟩ : Fin 11).succ := Fin.ext h
  rw [hn]
  exact key ⟨e.val, he⟩

/-- The twelfth EMIT without a stop request (R142). -/
theorem exec_emit_last_to_seeking (s : State) (h : s.edge.stopReq = false) :
    exec (emitOf 11) s = .next { s.evPut (eventWord s.fb 11) with eidx := 0, phase := .seeking } := by
  show execEmitb0 s = _
  unfold execEmitb0
  rw [if_neg (by simp [h])]
  rfl

/-- The twelfth EMIT with a stop request (R142, R191). -/
theorem exec_emit_last_to_halted (s : State) (h : s.edge.stopReq = true) :
    exec (emitOf 11) s =
      .next { s.evPut (eventWord s.fb 11) with eidx := 0, phase := .halted, cause := .stopped } := by
  show execEmitb0 s = _
  unfold execEmitb0
  rw [if_pos h]
  rfl

/-! ## The inversion of a step -/

/-- Everything an edge can have done, with the condition under which it did so and the state it left. -/
inductive StepCase (s : State) : State → Prop where
  | reset (rst : s.edge.rst = true) : StepCase s s.restart.advance
  | sync (rst : s.edge.rst = false) (phase : s.phase = .seeking) (offer : s.rxOffer = some Config.marker) :
      StepCase s ({ s.rxTake Config.marker with phase := .readingFrame, cnt := 0 } : State).advance
  | skip (b : Byte) (rst : s.edge.rst = false) (phase : s.phase = .seeking) (offer : s.rxOffer = some b)
      (ne : b ≠ Config.marker) : StepCase s (s.rxTake b).advance
  | capt (slot : Fin Config.lastSlot) (b : Byte) (rst : s.edge.rst = false) (phase : s.phase = .readingFrame)
      (offer : s.rxOffer = some b) (cnt : s.cnt = slot.castSucc) :
      StepCase s ({ (s.rxTake b).setSlot slot.castSucc b with cnt := slot.succ } : State).advance
  | captl (b : Byte) (rst : s.edge.rst = false) (phase : s.phase = .readingFrame) (offer : s.rxOffer = some b)
      (cnt : s.cnt = 17) : StepCase s ({ (s.rxTake b).setSlot 17 b with cnt := 0, phase := .flush } : State).advance
  | rxerr (rst : s.edge.rst = false) (phase : s.phase = .seeking ∨ s.phase = .readingFrame) (offer : s.rxOffer = none)
      (err : s.edge.rxErr = true) : StepCase s s.raiseTransportReadError.advance
  | flush (rst : s.edge.rst = false) (phase : s.phase = .flush) :
      StepCase s ({ s.rxDiscard s.edge.drop with phase := .dispatch, eidx := 0 } : State).advance
  | emit (next : EventIndex) (rst : s.edge.rst = false) (phase : s.phase = .dispatch) (ready : s.edge.evReady = true)
      (index : next.val = s.eidx.val + 1) :
      StepCase s ({ s.evPut (eventWord s.fb s.eidx) with eidx := next } : State).advance
  | emitLast (rst : s.edge.rst = false) (phase : s.phase = .dispatch) (ready : s.edge.evReady = true) (index : s.eidx = 11)
      (stop : s.edge.stopReq = false) :
      StepCase s ({ s.evPut (eventWord s.fb 11) with eidx := 0, phase := .seeking } : State).advance
  | emitStop (rst : s.edge.rst = false) (phase : s.phase = .dispatch) (ready : s.edge.evReady = true) (index : s.eidx = 11)
      (stop : s.edge.stopReq = true) :
      StepCase s ({ s.evPut (eventWord s.fb 11) with eidx := 0, phase := .halted, cause := .stopped } : State).advance
  | wait (rst : s.edge.rst = false)
      (idle : (s.phase = .seeking ∨ s.phase = .readingFrame) ∧ s.rxOffer = none ∧ s.edge.rxErr = false ∨
        s.phase = .dispatch ∧ s.edge.evReady = false ∨ s.phase = .halted) : StepCase s s.advance

/-- The EMIT case of the inversion. -/
theorem stepCase_of_emit (s u : State) (rst : s.edge.rst = false) (phase : s.phase = .dispatch)
    (ready : s.edge.evReady = true) (h : exec (emitOf s.eidx) s = .next u) : StepCase s u.advance := by
  by_cases hl : s.eidx = 11
  · rw [hl] at h
    cases hs : s.edge.stopReq with
    | false =>
      rw [exec_emit_last_to_seeking s hs] at h
      injection h with h; subst h
      exact .emitLast rst phase ready hl hs
    | true =>
      rw [exec_emit_last_to_halted s hs] at h
      injection h with h; subst h
      exact .emitStop rst phase ready hl hs
  · have hn : s.eidx.val + 1 < Config.eventsPerFrame := by
      show s.eidx.val + 1 < 12
      have := eventIndex_lt s.eidx
      have : s.eidx.val ≠ 11 := fun e => hl (Fin.ext e)
      omega
    rw [exec_emit_before_last s.eidx ⟨s.eidx.val + 1, hn⟩ rfl s] at h
    injection h with h; subst h
    exact .emit ⟨s.eidx.val + 1, hn⟩ rst phase ready rfl

/-- Whatever a step answers, one of the eleven cases left it. -/
theorem stepCase_of_step (s t : State) (h : step s = .next t) : StepCase s t := by
  obtain ⟨u, hu, rfl⟩ := (step_next_iff s t).1 h
  rcases decode_cases s.fetch with ⟨rst, d⟩ | ⟨rst, phase, offer, d⟩ | ⟨b, rst, phase, offer, ne, d⟩ |
    ⟨slot, b, rst, phase, offer, cnt, d⟩ | ⟨b, rst, phase, offer, cnt, d⟩ | ⟨rst, phase, offer, err, d⟩ |
    ⟨rst, phase, d⟩ | ⟨rst, phase, ready, d⟩ | ⟨rst, idle, d⟩ <;> rw [d] at hu
  · rw [exec_reset] at hu; injection hu with hu; subst hu; exact .reset rst
  · rw [exec_sync] at hu; injection hu with hu; subst hu; exact .sync rst phase offer
  · rw [exec_skip] at hu; injection hu with hu; subst hu; exact .skip b rst phase offer ne
  · rw [exec_capt] at hu; injection hu with hu; subst hu; exact .capt slot b rst phase offer cnt
  · rw [exec_captl] at hu; injection hu with hu; subst hu; exact .captl b rst phase offer cnt
  · rw [exec_rxerr] at hu; injection hu with hu; subst hu; exact .rxerr rst phase offer err
  · rw [exec_flush] at hu; injection hu with hu; subst hu; exact .flush rst phase
  · exact stepCase_of_emit s u rst phase ready hu
  · rw [exec_wait] at hu; injection hu with hu; subst hu; exact .wait rst idle

end Sys2Proof.Machine
end

