-- ==== Sys2Proof/Tests/Slice0.lean ====
section
/-! SUPPORT. Checks of the model against the spec's own words and test vectors (95_test_vectors.md; each test names its
source), and for every statement with hypotheses a concrete state that meets them. -/

namespace Sys2Proof.Tests

open Sys2Proof.Machine

/-! ## Small states -/

/-- A predicate on the next state. -/
def onNext (o : Host.Outcome State Fault Refusal) (p : State → Bool) : Bool :=
  match o with
  | .next t => p t
  | .fault _ => false
  | .refused _ => false

/-- `(phase, cnt, eidx, cause)`, as the test vectors write a state. -/
def position (s : State) : Phase × Fin 18 × Fin 12 × Cause := (s.phase, s.cnt, s.eidx, s.cause)

/-- A state at a position, over a frame buffer, with a stream and one edge of inputs. -/
def stateAt (p : Phase × Fin 18 × Fin 12 × Cause) (fb : Vector Byte 18) (rx : List Byte) (e : Edge) : State :=
  { State.reset with phase := p.1, cnt := p.2.1, eidx := p.2.2.1, cause := p.2.2.2, fb := fb, rx := rx, inputs := [e] }

def zeros : Vector Byte 18 := Vector.replicate 18 0#8

/-- Frame A: the source's end-to-end frame (41_frame_decoder.md). -/
def frameA : Vector Byte 18 :=
  #v[0x00#8, 0x00#8, 0x00#8, 0x00#8, 0x00#8, 0x00#8, 0x00#8, 0x00#8, 0x00#8, 0x00#8, 0x80#8, 0x00#8, 0x00#8, 0x00#8,
     0x00#8, 0x00#8, 0x00#8, 0x3F#8]

/-- Frame B (41_frame_decoder.md). -/
def frameB : Vector Byte 18 :=
  #v[0x7F#8, 0x07#8, 0x00#8, 0x04#8, 0x01#8, 0x00#8, 0xFF#8, 0xFF#8, 0xC0#8, 0x00#8, 0x55#8, 0x2A#8, 0x20#8, 0x01#8,
     0x2A#8, 0x15#8, 0xC0#8, 0xFF#8]

def offer : Edge := { Edge.idle with offer := true }
def ready : Edge := { Edge.idle with evReady := true }
def failed : Edge := { Edge.idle with rxErr := true }
def stopping : Edge := { ready with stopReq := true }
def resetting : Edge := { Edge.idle with rst := true, offer := true, evReady := true }

/-! ## WellFormed: an ill-formed term for each check -/

/-- R164: SKIP takes every byte but the marker. -/
theorem test_skip_marker_ill_formed : (Instr.skip 0xC0#8).wf = false := by decide
theorem test_skip_other_well_formed : (Instr.skip 0xC1#8).wf = true := by decide
/-- R46: a draw is at most RXQ_DEPTH where that has a value. -/
theorem test_flush_over_depth_ill_formed : (Instr.flush 5).wfWith (some 4) = false := by decide
theorem test_flush_at_depth_well_formed : (Instr.flush 4).wfWith (some 4) = true := by decide
/-- R191: STOP is not performed alone. -/
theorem test_stop_ill_formed : Instr.stop.wf = false := by decide

/-! ## Decode: words written out from the encodings -/

/-- R75: the marker, all eight bits compared. -/
theorem test_decode_sync : decodeTableWord 8 0b11000000 = some .sync := by decide
/-- V-Y5: one bit from the marker. -/
theorem test_decode_skip : decodeTableWord 8 0b11000001 = some (.skip 0xC1#8) := by decide
/-- V-Y10: the last slot of CAPT. -/
theorem test_decode_capt : decodeByte .readingFrame 16 0x12#8 = .ok (.capt (16 : Fin 17) 0x12#8) := by decide
/-- V-Y12: the marker value as the last body byte. -/
theorem test_decode_captl : decodeByte .readingFrame 17 0b11000000#8 = .ok (.captl 0xC0#8) := by decide
/-- R43: no byte is taken in DISPATCH. -/
theorem test_decode_byte_not_taken : decodeByte .dispatch 0 0x00#8 = .error .byteNotTaken := by decide
/-- R74 rows 1, 4, 8, 10, 24, 25. -/
theorem test_decode_reset : decode (stateAt (.dispatch, 0, 7, .none) zeros [] resetting).fetch = .reset := by decide
theorem test_decode_rxerr : decode (stateAt (.readingFrame, 9, 0, .none) zeros [] failed).fetch = .rxerr := by decide
theorem test_decode_flush : decode (stateAt (.flush, 0, 0, .none) zeros [1#8] { offer with drop := 3 }).fetch = .flush 3 := by decide
theorem test_decode_wait : decode (stateAt (.halted, 0, 0, .stopped) zeros [1#8] { offer with evReady := true }).fetch = .wait := by
  decide
/-- R74 row 23 and R191: STOP is the second half of EMITB0. -/
theorem test_decode_row23 : decode (stateAt (.dispatch, 0, 11, .none) zeros [] stopping).fetch = .emitb0 := by decide
theorem test_decode_emitk5 : decodeTableWord 24 0b0101000001111111111 = some .emitk5 := by decide
theorem test_decode_emitk4 : decodeTableWord 24 0b0100000001000000000 = some .emitk4 := by decide
theorem test_decode_emitk3 : decodeTableWord 24 0b0011000000000000001 = some .emitk3 := by decide
theorem test_decode_emitk2 : decodeTableWord 24 0b0010111111111111111 = some .emitk2 := by decide
theorem test_decode_emitk1 : decodeTableWord 24 0b0001000000011000000 = some .emitk1 := by decide
theorem test_decode_emitk0 : decodeTableWord 24 0b0000001010101010101 = some .emitk0 := by decide
theorem test_decode_emitb5 : decodeTableWord 24 0b1101000000000100000 = some .emitb5 := by decide
theorem test_decode_emitb4 : decodeTableWord 24 0b1100000000000000001 = some .emitb4 := by decide
theorem test_decode_emitb3 : decodeTableWord 24 0b1011000000000101010 = some .emitb3 := by decide
theorem test_decode_emitb2 : decodeTableWord 24 0b1010000000000010101 = some .emitb2 := by decide
theorem test_decode_emitb1 : decodeTableWord 24 0b1001000000000000000 = some .emitb1 := by decide
theorem test_decode_emitb0 : decodeTableWord 24 0b1000000000000111111 = some .emitb0 := by decide
/-- R87: id 6, and a BAY word with bit 6 set. -/
theorem test_decode_id_six : decodeEvent 0b0110000000000000000#19 = .error .eventIdUnused := by decide
theorem test_decode_bay_payload : decodeEvent 0b1000000000001000000#19 = .error .bayPayloadNotZero := by decide

/-! ## One step each (95_test_vectors.md part 2) -/

/-- V-Y1: SKIP; the byte is gone, the rest of the stream stays. -/
theorem test_step_skip : onNext (step (stateAt (.seeking, 0, 0, .none) frameB [0x55#8, 0x01#8] offer)) (fun t =>
    position t = (.seeking, 0, 0, .none) && t.rx = [0x01#8] && t.fb = frameB) = true := by decide
/-- V-Y7: SYNC; the marker is not stored. -/
theorem test_step_sync : onNext (step (stateAt (.seeking, 0, 0, .none) frameB [0xC0#8] offer)) (fun t =>
    position t = (.readingFrame, 0, 0, .none) && t.fb = frameB) = true := by decide
/-- V-Y9. -/
theorem test_step_capt : onNext (step (stateAt (.readingFrame, 10, 0, .none) zeros [0x80#8] offer)) (fun t =>
    position t = (.readingFrame, 11, 0, .none) && t.slot 10 = 0x80#8 && t.slot 11 = 0#8) = true := by decide
/-- V-Y8: no restart on the marker value. -/
theorem test_step_capt_marker : onNext (step (stateAt (.readingFrame, 0, 0, .none) zeros [0xC0#8] offer)) (fun t =>
    position t = (.readingFrame, 1, 0, .none) && t.slot 0 = 0xC0#8) = true := by decide
/-- V-F5: the byte wins over rx_err, and the frame is complete. -/
theorem test_step_captl : onNext (step (stateAt (.readingFrame, 17, 0, .none) frameB [0x00#8] { offer with rxErr := true })) (fun t =>
    position t = (.flush, 0, 0, .none) && t.slot 17 = 0x00#8 && t.slot 16 = 0xC0#8) = true := by decide
/-- V-Y14: the transport holds C0 01 02 and drops the three. -/
theorem test_step_flush : onNext (step (stateAt (.flush, 0, 0, .none) zeros [0xC0#8, 0x01#8, 0x02#8, 0x03#8] { offer with drop := 3 }))
    (fun t => position t = (.dispatch, 0, 0, .none) && t.rx = [0x03#8] && t.run.taken = []) = true := by decide
/-- V-F4: one byte short: still no events. -/
theorem test_step_rxerr : onNext (step (stateAt (.readingFrame, 17, 0, .none) frameB [] failed)) (fun t =>
    position t = (.halted, 17, 0, .transportRead) && t.run.events = []) = true := by decide
/-- V-F7: rx_err is ignored in FLUSH. -/
theorem test_step_flush_rx_err : onNext (step (stateAt (.flush, 0, 0, .none) zeros [] failed)) (fun t =>
    position t = (.dispatch, 0, 0, .none)) = true := by decide
/-- V-T1: no event is transferred at the edge of a reset. -/
theorem test_step_reset : onNext (step (stateAt (.dispatch, 0, 7, .none) frameB [] resetting)) (fun t =>
    position t = (.seeking, 0, 0, .none) && t.eventStream = []) = true := by decide
/-- V-T3, V-T2: the fault is forgotten and no byte is taken. -/
theorem test_step_reset_halted : onNext (step (stateAt (.halted, 9, 0, .transportRead) frameB [0x01#8] resetting)) (fun t =>
    position t = (.seeking, 0, 0, .none) && t.rx = [0x01#8]) = true := by decide
/-- V-T6. -/
theorem test_step_stop : onNext (step (stateAt (.dispatch, 0, 11, .none) frameB [] stopping)) (fun t =>
    position t = (.halted, 0, 0, .stopped) && t.run.events = [0x4003F#19]) = true := by decide
/-- V-T8: stop_req is not looked at without the transfer. -/
theorem test_step_wait : onNext (step (stateAt (.dispatch, 0, 11, .none) frameB [] { Edge.idle with stopReq := true })) (fun t =>
    position t = (.dispatch, 0, 11, .none) && t.run.events = []) = true := by decide
/-! V-E (frame B) and V-S6 (frame A): the word of each EMIT and the index after it. -/

theorem test_step_emitk5 : onNext (step (stateAt (.dispatch, 0, 0, .none) frameB [0x01#8] ready)) (fun t =>
    position t = (.dispatch, 0, 1, .none) && t.run.events = [0x283FF#19] && t.rx = [0x01#8]) = true := by decide
theorem test_step_emitk4 : onNext (step (stateAt (.dispatch, 0, 1, .none) frameB [0x01#8] ready)) (fun t =>
    position t = (.dispatch, 0, 2, .none) && t.run.events = [0x20200#19] && t.rx = [0x01#8]) = true := by decide
theorem test_step_emitk3 : onNext (step (stateAt (.dispatch, 0, 2, .none) frameB [0x01#8] ready)) (fun t =>
    position t = (.dispatch, 0, 3, .none) && t.run.events = [0x18001#19] && t.rx = [0x01#8]) = true := by decide
theorem test_step_emitk2 : onNext (step (stateAt (.dispatch, 0, 3, .none) frameB [0x01#8] ready)) (fun t =>
    position t = (.dispatch, 0, 4, .none) && t.run.events = [0x17FFF#19] && t.rx = [0x01#8]) = true := by decide
theorem test_step_emitk1 : onNext (step (stateAt (.dispatch, 0, 4, .none) frameB [0x01#8] ready)) (fun t =>
    position t = (.dispatch, 0, 5, .none) && t.run.events = [0x080C0#19] && t.rx = [0x01#8]) = true := by decide
theorem test_step_emitk0 : onNext (step (stateAt (.dispatch, 0, 5, .none) frameB [0x01#8] ready)) (fun t =>
    position t = (.dispatch, 0, 6, .none) && t.run.events = [0x01555#19] && t.rx = [0x01#8]) = true := by decide
theorem test_step_emitb5 : onNext (step (stateAt (.dispatch, 0, 6, .none) frameB [0x01#8] ready)) (fun t =>
    position t = (.dispatch, 0, 7, .none) && t.run.events = [0x68020#19] && t.rx = [0x01#8]) = true := by decide
theorem test_step_emitb4 : onNext (step (stateAt (.dispatch, 0, 7, .none) frameB [0x01#8] ready)) (fun t =>
    position t = (.dispatch, 0, 8, .none) && t.run.events = [0x60001#19] && t.rx = [0x01#8]) = true := by decide
theorem test_step_emitb3 : onNext (step (stateAt (.dispatch, 0, 8, .none) frameB [0x01#8] ready)) (fun t =>
    position t = (.dispatch, 0, 9, .none) && t.run.events = [0x5802A#19] && t.rx = [0x01#8]) = true := by decide
theorem test_step_emitb2 : onNext (step (stateAt (.dispatch, 0, 9, .none) frameB [0x01#8] ready)) (fun t =>
    position t = (.dispatch, 0, 10, .none) && t.run.events = [0x50015#19] && t.rx = [0x01#8]) = true := by decide
theorem test_step_emitb1 : onNext (step (stateAt (.dispatch, 0, 10, .none) frameB [0x01#8] ready)) (fun t =>
    position t = (.dispatch, 0, 11, .none) && t.run.events = [0x48000#19] && t.rx = [0x01#8]) = true := by decide
theorem test_step_emitb0 : onNext (step (stateAt (.dispatch, 0, 11, .none) frameB [0x01#8] ready)) (fun t =>
    position t = (.seeking, 0, 0, .none) && t.run.events = [0x4003F#19] && t.rx = [0x01#8]) = true := by decide
/-- V-S6: the twelve words of the source's frame. -/
theorem test_frame_A : frameEvents frameA =
    [0x28000#19, 0x20000#19, 0x18000#19, 0x10000#19, 0x08000#19, 0x00080#19,
     0x68000#19, 0x60000#19, 0x58000#19, 0x50000#19, 0x48000#19, 0x4003F#19] := by decide

/-! ## The data path -/

/-- V-K6: OR, not add. -/
theorem test_raw_or : rawWord 0x80#8 0x01#8 = 128#15 := by decide
/-- V-K16, V-K14. -/
theorem test_raw_marker : rawWord 0xC0#8 0xC0#8 = 24768#15 := by decide
theorem test_raw_largest : rawWord 0xFF#8 0xFF#8 = 32767#15 := by decide
/-- V-B15: bit 5 with ignored bits. -/
theorem test_flags : rowFlags 0xE0#8 = [true, false, false, false, false, false] := by decide
/-- V-S4: 0b000001 yields [0,0,0,0,0,1]. -/
theorem test_flags_last : rowFlags 0b000001#8 = [false, false, false, false, false, true] := by decide
/-- V-X9: no overflow of the field. -/
theorem test_scale_top : scale 32767#15 = 32767#15 := by decide
/-- V-X14, V-X16, V-X18, V-X19: general configurations, floor toward minus infinity, reversed interval. -/
theorem test_scale_1000 : scaleInt { Config.scaler with srcEnd := 1000 } 333 = 340 := by decide
theorem test_scale_negative : scaleInt { Config.scaler with dstBeg := -1, signed := true, valW := 18 } 511 = -2 := by decide
theorem test_scale_reversed : scaleInt { Config.scaler with srcBeg := 1024, srcEnd := 0 } 256 = 768 := by decide
theorem test_scale_floor : scaleInt { Config.scaler with dstBeg := -1, valF := 8, signed := true, valW := 18 } 1 = -256 := by
  decide
/-- V-X17: the field is signed where outputs are negative. -/
theorem test_scale_decreasing :
    scaleInt { Config.scaler with dstBeg := 1, dstEnd := 0, signed := true, valW := 18 } 1025 = -1 := by decide
/-- V-X10: a zero-width interval is refused; and the note to V-X11: with VAL_W = 15 the signed ones are refused. -/
theorem test_build_degenerate : checkScaler { Config.scaler with srcEnd := 0 } = some .zeroSourceWidth := by decide
theorem test_build_unfit : checkScaler { Config.scaler with dstBeg := -1, signed := true } = some .outputDoesNotFit := by decide

/-! ## Printed forms (R90, R88) -/

/-- P1: `CAPT 10 80`. -/
theorem test_script_capt : script (.capt (10 : Fin 17) 0x80#8) = "CAPT 10 80" := by decide
/-- V-S6, V-S11. -/
theorem test_script_bay : eventScript (.bay 4 0b000001#6) = "BAY 4 000001" := by decide
theorem test_script_knob : eventScript (.knob 0 128#15) = "KNOB 0 128" := by decide
theorem test_address : address (.bay 0 0x3F#6) = "/repatcher/output0" := by decide

/-! ## withFetchWord: the very next step runs the word -/

theorem test_fetch_skip : decode (State.reset.withFetchWord 8 0x55).fetch = .skip 0x55#8 := by decide
theorem test_fetch_event : onNext (step (State.reset.withFetchWord 24 0x283FF)) (fun t => t.run.events = [0x283FF#19]) = true := by
  decide
theorem test_fetch_row : onNext (step (State.reset.withFetchWord 24 0x50015)) (fun t => t.run.events = [0x50015#19]) = true := by
  decide


/-! ## Witnesses: for every statement with hypotheses, and for every selection condition, a concrete state that meets them -/

/-- Some next state. -/
def answersNext (o : Host.Outcome State Fault Refusal) : Bool := onNext o fun _ => true

def seeks (b : Byte) : State := stateAt (.seeking, 0, 0, .none) frameB [b, 0x01#8] offer
def reads (cnt : Fin 18) (b : Byte) : State := stateAt (.readingFrame, cnt, 0, .none) frameB [b, 0x01#8] offer
def serves (e : Fin 12) : State := stateAt (.dispatch, 0, e, .none) frameB [0x01#8] ready
def stallsAt (e : Fin 12) : State := stateAt (.dispatch, 0, e, .none) frameB [0x01#8] offer
def flushes : State := stateAt (.flush, 0, 0, .none) frameB [0xC0#8, 0x01#8, 0x02#8] { offer with drop := 2 }
def waitsFailed (p : Phase) (cnt : Fin 18) : State := stateAt (p, cnt, 0, .none) frameB [] failed
def haltedBy (c : Cause) (e : Edge) : State := stateAt (.halted, 0, 0, c) frameB [0x01#8] e
def stops : State := stateAt (.dispatch, 0, 11, .none) frameB [0x01#8] stopping

theorem witness_StepPerformsTheDecodedOperation :
    ∃ t, decode (seeks 0x55#8).fetch = .skip 0x55#8 ∧ exec (.skip 0x55#8) (seeks 0x55#8) = .next t := ⟨_, by decide, rfl⟩
theorem witness_SkipTakesTheByteAndNothingElse :
    decode (seeks 0xC1#8).fetch = .skip 0xC1#8 ∧ (seeks 0xC1#8).edge.rst = false ∧ (seeks 0xC1#8).phase = .seeking ∧
      (seeks 0xC1#8).rxOffer = some 0xC1#8 ∧ decode (reads 0 0xC1#8).fetch ≠ .skip 0xC1#8 := by decide
theorem witness_SyncTakesTheMarkerAndOpensAFrame :
    decode (seeks 0xC0#8).fetch = .sync ∧ (seeks 0xC0#8).edge.rst = false ∧ (seeks 0xC0#8).rxOffer = some 0xC0#8 ∧
      decode (seeks 0x80#8).fetch ≠ .sync := by decide
/-- The least and the greatest slot, and the one past. -/
theorem witness_CaptStoresTheByteInTheSlotOfCnt :
    decode (reads 0 0xC0#8).fetch = .capt (0 : Fin 17) 0xC0#8 ∧ decode (reads 16 0xFF#8).fetch = .capt (16 : Fin 17) 0xFF#8 ∧
      (reads 16 0xFF#8).rxOffer = some 0xFF#8 ∧ decode (reads 17 0xFF#8).fetch ≠ .capt (16 : Fin 17) 0xFF#8 := by decide
theorem witness_CaptlStoresSlot17AndEndsIntake :
    decode (reads 17 0xC0#8).fetch = .captl 0xC0#8 ∧ (reads 17 0xC0#8).edge.rst = false ∧
      (reads 17 0xC0#8).rxOffer = some 0xC0#8 := by decide
theorem witness_FlushDropsTheDrawAndStartsDispatch :
    decode flushes.fetch = .flush 2 ∧ flushes.edge.rst = false ∧ flushes.phase = .flush ∧ flushes.edge.drop = 2 ∧
      flushes.rxFlush = true ∧ (seeks 0x55#8).rxFlush = false := by decide
theorem witness_RxerrHaltsWithCauseTransportRead :
    decode (waitsFailed .seeking 0).fetch = .rxerr ∧ decode (waitsFailed .readingFrame 17).fetch = .rxerr ∧
      (waitsFailed .seeking 0).rxOffer = none ∧ (waitsFailed .seeking 0).edge.rxErr = true := by decide
/-- In every phase. -/
theorem witness_ResetStartsAnewFromAnyState :
    ∀ p : Fin 5, decode (stateAt (([.seeking, .readingFrame, .flush, .dispatch, .halted] : List Phase)[p], 0, 0, .none) frameB [] resetting).fetch = .reset := by decide
/-- Each of the conditions; an offer by a transport that has no byte is no offer. -/
theorem witness_WaitChangesNothing :
    decode (stateAt (.seeking, 0, 0, .none) frameB [0x01#8] Edge.idle).fetch = .wait ∧
      decode (stateAt (.readingFrame, 17, 0, .none) frameB [] offer).fetch = .wait ∧
      decode (stallsAt 11).fetch = .wait ∧ decode (haltedBy .transportRead offer).fetch = .wait := by decide
theorem witness_StopHaltsWithCauseStopped :
    stops.edge.rst = false ∧ stops.phase = .dispatch ∧ stops.edge.evReady = true ∧ stops.eidx = 11 ∧
      stops.edge.stopReq = true := by decide
theorem witness_KnobEmitsTransferTheScaledPair :
    decode (serves 0).fetch = .emitk5 ∧ decode (serves 1).fetch = .emitk4 ∧ decode (serves 2).fetch = .emitk3 ∧
      decode (serves 3).fetch = .emitk2 ∧ decode (serves 4).fetch = .emitk1 ∧ decode (serves 5).fetch = .emitk0 ∧
      (serves 5).edge.rst = false ∧ (serves 5).edge.evReady = true := by decide
theorem witness_RowEmitsTransferTheSixFlags :
    decode (serves 6).fetch = .emitb5 ∧ decode (serves 7).fetch = .emitb4 ∧ decode (serves 8).fetch = .emitb3 ∧
      decode (serves 9).fetch = .emitb2 ∧ decode (serves 10).fetch = .emitb1 := by decide
/-- Both values of `stop_req`, and a step that leaves DISPATCH. -/
theorem witness_Emitb0TransfersTheLastEventAndEndsTheFrame :
    decode (serves 11).fetch = .emitb0 ∧ (serves 11).edge.stopReq = false ∧
      decode stops.fetch = .emitb0 ∧ stops.edge.stopReq = true ∧ stops.phase = .dispatch ∧
      onNext (step stops) (fun t => t.phase ≠ .dispatch) = true := by decide
/-- Every index: 5 and 6 where the word's kind changes, 10 and 11 where the next index does. -/
theorem witness_ReadySinkGetsTheOfferedWord :
    ∀ e : Fin 12, (serves e).phase = .dispatch ∧ (serves e).edge.rst = false ∧ (serves e).edge.evReady = true ∧
      decode (serves e).fetch = emitOf e ∧ (serves e).edge.stopReq = false := by decide
/-- A word held, a word taken last, a word withdrawn by RESET. -/
theorem witness_OfferedWordIsHeldUntilTaken :
    (stallsAt 7).phase = .dispatch ∧ (stallsAt 7).edge.rst = false ∧ (stallsAt 7).edge.evReady = false ∧
      (stallsAt 7).evValid = true ∧ onNext (step (serves 11)) (fun t => !t.evValid) = true ∧
      onNext (step (stateAt (.dispatch, 0, 7, .none) frameB [] resetting)) (fun t => !t.evValid) = true := by decide
theorem witness_EveryByteValueDecodes :
    (0xC1#8 : Byte) ≠ 0xC0#8 ∧ (0x80#8 : Byte) ≠ 0xC0#8 := by decide
theorem witness_DecodeAndEncodeAgree :
    (Instr.skip 0xFF#8).wf = true ∧ (Instr.flush 3).wf = true ∧ (Instr.capt (16 : Fin 17) 0xC0#8).wf = true ∧
      drawFits Config.rxqDepth flushes.fetch.drop = true ∧ decodeEvent 0x283FF#19 = .ok (.knob 5 1023#15) ∧
      decodeEvent 0x50015#19 = .ok (.bay 2 0x15#6) := by decide
/-- The first and last index of each kind, with every bit outside the pattern set. -/
theorem witness_EventPatternsSelectTheirEmit :
    (0x283FF#19 &&& 0x78000#19 : EvWord) = BitVec.ofNat 19 (0x28000 - 0x8000 * 0) ∧
      (0x07FFF#19 &&& 0x78000#19 : EvWord) = BitVec.ofNat 19 (0x28000 - 0x8000 * 5) ∧
      (0x6803F#19 &&& 0x7FFC0#19 : EvWord) = BitVec.ofNat 19 (0x68000 - 0x8000 * (6 - 6)) ∧
      (0x40001#19 &&& 0x7FFC0#19 : EvWord) = BitVec.ofNat 19 (0x68000 - 0x8000 * (11 - 6)) ∧
      decodeEventWord 0x40001#19 = .ok .emitb0 ∧ decodeEventWord 0x07FFF#19 = .ok .emitk0 := by decide
/-- Both ends of each range, and both bits that feed bit 7 (R77). -/
theorem witness_RawWordBitByBit :
    (0 < 7 ∧ 6 < 7) ∧ (8 ≤ 8 ∧ 14 ≤ 14) ∧ (rawWord 0x00#8 0x01#8).getLsbD 7 = true ∧
      (rawWord 0x80#8 0x00#8).getLsbD 7 = true ∧ (rawWord 0xFF#8 0x80#8).getLsbD 14 = true := by decide
theorem witness_RowFlagsAreBitsFiveDownToZero :
    (0xFF#8 : Byte).extractLsb' 0 6 = (0x3F#8 : Byte).extractLsb' 0 6 ∧ rowFlags 0xFF#8 = rowFlags 0x3F#8 ∧
      rowFlags 0x20#8 = [true, false, false, false, false, false] := by decide
theorem witness_ScalerRoundsTheExactValueDown :
    Config.scaler.den ≠ 0 ∧ Config.scaler.srcEnd ≠ Config.scaler.srcBeg := by decide
/-- An admitted configuration, a zero-width one, and one a bit too narrow. -/
theorem witness_BuildAdmitsExactlyTheFittingConfigurations :
    Config.scaler.den ≠ 0 ∧ checkScaler Config.scaler = none ∧ fitsField Config.scaler (scaleInt Config.scaler 32767) = true ∧
      ({ Config.scaler with srcEnd := 0 } : ScalerConfig).srcEnd = ({ Config.scaler with srcEnd := 0 } : ScalerConfig).srcBeg ∧
      checkScaler { Config.scaler with valW := 14 } = some .outputDoesNotFit := by decide
theorem witness_MultiplyAddFormComputesTheSame :
    Config.scaler.den ≠ 0 ∧ Config.scaler.srcEnd ≠ Config.scaler.srcBeg ∧
      ((Config.scaler.dstEnd - Config.scaler.dstBeg : Int) : ℚ) / ((Config.scaler.srcEnd - Config.scaler.srcBeg : Int) : ℚ)
        * 2 ^ Config.scaler.valF = ((1 : Int) : ℚ) / 2 ^ 0 ∧
      ((Config.scaler.dstBeg : ℚ) / Config.scaler.den - (Config.scaler.srcBeg : ℚ) / Config.scaler.den *
        (((Config.scaler.dstEnd - Config.scaler.dstBeg : Int) : ℚ) / ((Config.scaler.srcEnd - Config.scaler.srcBeg : Int) : ℚ)))
        * 2 ^ (Config.scaler.valF + 0) = ((0 : Int) : ℚ) := by
  refine ⟨by decide, by decide, ?_, ?_⟩ <;> norm_num [Config.scaler, Config.valF]
/-- Every phase and every cause, and a step with `rx_ready` 0. -/
theorem witness_RxReadyFollowsPhaseAndStatusShowsPhaseAndCause :
    (∀ p : Fin 5, (stateAt (([.seeking, .readingFrame, .flush, .dispatch, .halted] : List Phase)[p], 0, 0, .none) frameB []
        Edge.idle).stPhase = BitVec.ofNat 3 p.val) ∧
      (haltedBy .none ready).stCause = 0#2 ∧ (haltedBy .stopped ready).stCause = 1#2 ∧ (haltedBy .transportRead ready).stCause = 2#2 ∧
      answersNext (step flushes) = true ∧ flushes.rxReady = false ∧ flushes.edge.rst = false := by decide
/-- The greatest value of each register, and two states with the same words (R24 to R27). -/
theorem witness_RegistersHoldEveryValueInTheirWidths :
    (reads 17 0x00#8).positionWords = (reads 17 0xC0#8).positionWords ∧ (reads 17 0x00#8).stCause = (reads 17 0xC0#8).stCause ∧
      (reads 17 0x00#8).positionWords = (1#3, 0b10001#5, 0#4) ∧ (serves 11).positionWords = (3#3, 0#5, 0b1011#4) ∧
      (haltedBy .transportRead ready).positionWords = (4#3, 0#5, 0#4) ∧ (haltedBy .transportRead ready).stCause = 2#2 := by decide
theorem witness_SequencerInvariantIsKept :
    (∃ t, SequencerInv (reads 17 0x01#8) ∧ step (reads 17 0x01#8) = .next t) ∧ (∃ t, SequencerInv stops ∧ step stops = .next t) ∧
      ∃ t, SequencerInv (haltedBy .stopped resetting) ∧ step (haltedBy .stopped resetting) = .next t := by
  refine ⟨⟨_, ?_, rfl⟩, ⟨_, ?_, rfl⟩, ⟨_, ?_, rfl⟩⟩ <;> unfold SequencerInv <;> decide

/-- Frame B as the bytes after the marker. -/
def bodyB : List Byte := frameB.toList

/-- In a frame, 17 bytes taken. -/
def inFrame : State :=
  { reads 17 0xFF#8 with run := { taken := 0x01#8 :: 0xC0#8 :: bodyB.take 17, events := [] } }

/-- In DISPATCH, the twelfth event to be transferred. -/
def lastPending : State :=
  { serves 11 with run := { taken := 0xC0#8 :: bodyB, events := (frameEvents frameB).take 11 } }

/-- A frame about to be completed, and one about to be dispatched to its end. -/
theorem witness_StreamInvariantIsKept :
    (∃ t, StreamInv inFrame ∧ step inFrame = .next t) ∧ ∃ t, StreamInv lastPending ∧ step lastPending = .next t := by
  refine ⟨⟨_, ⟨?_, ?_⟩, rfl⟩, ⟨_, ⟨?_, ?_⟩, rfl⟩⟩
  · show (scan inFrame.run.taken).current = some (inFrame.fb.toList.take inFrame.cnt.val); decide
  · decide
  · show (scan lastPending.run.taken).current = none ∧ (scan lastPending.run.taken).frames.getLast? = some lastPending.fb.toList
    decide
  · decide
/-- Two states that differ in the first slot not captured yet. -/
theorem witness_SlotsNotCapturedNeverMatter :
    ∃ t, AgreeUpToUnread (stateAt (.readingFrame, 2, 0, .none) frameA [0x01#8] offer)
        { stateAt (.readingFrame, 2, 0, .none) frameA [0x01#8] offer with fb := frameA.set 2 0x77#8 } ∧
      step (stateAt (.readingFrame, 2, 0, .none) frameA [0x01#8] offer) = .next t := by
  refine ⟨_, ⟨⟨rfl, rfl, rfl, rfl⟩, rfl, rfl, rfl, rfl, rfl, ?_⟩, rfl⟩
  decide
/-- The first and the last slot changed, no byte offered while reading, and a step in another phase. -/
theorem witness_SlotsChangeOnlyByCapture :
    (reads 17 0xC0#8).edge.rst = false ∧ answersNext (step (reads 17 0xC0#8)) = true ∧ (reads 17 0xC0#8).rxOffer = some 0xC0#8 ∧
      (reads 0 0xC0#8).phase = .readingFrame ∧ answersNext (step (reads 0 0xC0#8)) = true ∧
      onNext (step (reads 17 0xC0#8)) (fun t => t.slot 17 ≠ (reads 17 0xC0#8).slot 17) = true ∧
      onNext (step (reads 0 0xC0#8)) (fun t => t.slot 0 ≠ (reads 0 0xC0#8).slot 0) = true ∧
      (waitsFailed .readingFrame 17).rxOffer = none ∧ (waitsFailed .readingFrame 17).edge.rst = false ∧
      answersNext (step (waitsFailed .readingFrame 17)) = true ∧
      (stallsAt 3).phase ≠ .readingFrame ∧ (stallsAt 3).edge.rst = false ∧ answersNext (step (stallsAt 3)) = true := by decide
theorem witness_OnlyResetLeavesHalted :
    (haltedBy .stopped stopping).phase = .halted ∧ (haltedBy .stopped stopping).edge.rst = false ∧
      (haltedBy .transportRead resetting).phase = .halted ∧ (haltedBy .transportRead resetting).edge.rst = true := by decide
/-- A kept cause, and each of the three operations that write it. -/
theorem witness_CauseIsWrittenOnlyByStopFaultAndReset :
    (∃ t, SequencerInv (haltedBy .stopped failed) ∧ (haltedBy .stopped failed).edge.rst = false ∧ (haltedBy .stopped failed).cause ≠ .none ∧
        step (haltedBy .stopped failed) = .next t) ∧
      (∃ t, step stops = .next t ∧ t.cause ≠ stops.cause) ∧
      (∃ t, step (waitsFailed .readingFrame 9) = .next t ∧ t.cause ≠ (waitsFailed .readingFrame 9).cause) ∧
      ∃ t, step (haltedBy .stopped resetting) = .next t ∧ t.cause ≠ (haltedBy .stopped resetting).cause := by
  refine ⟨⟨_, ?_, by decide, by decide, rfl⟩, ⟨_, rfl, by decide⟩, ⟨_, rfl, by decide⟩, ⟨_, rfl, ?_⟩⟩
  · unfold SequencerInv; decide
  · show Cause.none ≠ Cause.stopped; decide
/-- The eleventh transfer, and the twelfth event not yet taken. -/
theorem witness_StopRequestIsSampledOnlyAtTheTwelfthTransfer :
    (serves 10).inputs = ready :: [] ∧ ¬ (ready.rst = false ∧ (serves 10).phase = .dispatch ∧ (serves 10).eidx = 11 ∧ ready.evReady = true) ∧
      (stallsAt 11).inputs = offer :: [] ∧ ¬ (offer.rst = false ∧ (stallsAt 11).phase = .dispatch ∧ (stallsAt 11).eidx = 11 ∧ offer.evReady = true) := by decide
/-- An offered byte, and a phase that waits for none. -/
theorem witness_ReadFailureIsSeenOnlyWhileWaiting :
    (reads 17 0x00#8).inputs = offer :: [] ∧ (reads 17 0x00#8).rxOffer ≠ none ∧
      (serves 0).inputs = ready :: [] ∧ (serves 0).phase ≠ .seeking ∧ (serves 0).phase ≠ .readingFrame ∧
      ¬ (offer.rst = false ∧ ((reads 17 0x00#8).phase = .seeking ∨ (reads 17 0x00#8).phase = .readingFrame) ∧ (reads 17 0x00#8).rxOffer = none) := by decide
/-- One step for each. -/
theorem witness_OnlyTheNamedOperationsChangeThePhase :
    onNext (step (seeks 0xC0#8)) (fun t => t.phase ≠ .seeking) = true ∧ onNext (step (reads 17 0x01#8)) (fun t => t.phase ≠ .readingFrame) = true ∧
      onNext (step flushes) (fun t => t.phase ≠ .flush) = true ∧ onNext (step (serves 11)) (fun t => t.phase ≠ .dispatch) = true ∧
      onNext (step (waitsFailed .seeking 0)) (fun t => t.phase ≠ .seeking) = true ∧
      onNext (step (haltedBy .stopped resetting)) (fun t => t.phase ≠ .halted) = true := by decide
/-- A byte taken, bytes dropped, neither. -/
theorem witness_BytesLeaveTheStreamInOrder :
    (seeks 0x55#8).edge.rst = false ∧ answersNext (step (seeks 0x55#8)) = true ∧ flushes.edge.rst = false ∧ answersNext (step flushes) = true ∧
      (stallsAt 0).edge.rst = false ∧ answersNext (step (stallsAt 0)) = true := by decide
/-- With a transfer and without. -/
theorem witness_EventsAreOnlyEverAppended :
    answersNext (step (serves 5)) = true ∧ (serves 5).evValid = true ∧ answersNext (step (stallsAt 5)) = true ∧
      answersNext (step (haltedBy .stopped resetting)) = true := by decide
theorem witness_TwelveEventsInTheFixedOrder :
    (serves 11).phase = .dispatch ∧ (serves 11).edge.rst = false ∧ (serves 11).edge.evReady = true ∧ answersNext (step (serves 11)) = true ∧
      answersNext (step (serves 10)) = true ∧ (serves 10).eidx.val ≤ 10 := by decide
/-- The eleventh event, a sink that stalls twice, and both ends. -/
theorem witness_AServedFrameIsDispatchedInFull :
    ({ serves 10 with inputs := [offer, ready, offer] ++ stopping :: [] } : State).phase = .dispatch ∧
      (∀ e ∈ [offer, ready, offer], Edge.rst e = false) ∧ stopping.serves = true ∧ servings [offer, ready, offer] + 10 = 11 ∧
      ready.serves = true ∧ stopping.stopReq = true ∧ ready.stopReq = false := by decide
theorem witness_OneFrameTakesThirtyTwoEdges :
    ∃ s : State, s.phase = .seeking ∧ s.rx = 0xC0#8 :: (bodyB ++ [0xC0#8]) ∧ bodyB.length = 18 ∧
      s.inputs = List.replicate 19 offer ++ Edge.idle :: (List.replicate 11 ready ++ ready :: []) ∧
      (List.replicate 19 offer).length = 19 ∧ (∀ e ∈ List.replicate 19 offer, e.offers = true) ∧ Edge.idle.rst = false ∧
      (List.replicate 11 ready).length = 11 ∧ (∀ e ∈ List.replicate 11 ready, e.serves = true) ∧ ready.serves = true ∧
      ready.stopReq = false := by
  refine ⟨{ State.reset with rx := 0xC0#8 :: (bodyB ++ [0xC0#8]), inputs := List.replicate 19 offer ++ Edge.idle :: (List.replicate 11 ready ++ ready :: []) },
    rfl, rfl, ?_⟩
  decide
theorem witness_StrayBytesAreSkippedOneByOne :
    (∀ b ∈ ([0x55#8, 0xC1#8] : List Byte), b ≠ 0xC0#8) ∧ [offer, offer].length = ([0x55#8, 0xC1#8] : List Byte).length ∧
      (∀ e ∈ [offer, offer], e.offers = true) ∧
      ({ seeks 0x55#8 with rx := [0x55#8, 0xC1#8] ++ [0xC0#8], inputs := [offer, offer] ++ [ready] } : State).phase = .seeking := by decide

/-- Three clean frames: bytes with bit 7 set before the first, a gap before the second, none before the third. -/
def cleanStream : List Segment :=
  [⟨[0xFF#8], bodyB.map (· &&& 0x7F#8)⟩, ⟨[0x55#8, 0xC1#8], zeros.toList⟩, ⟨[], zeros.toList⟩]

/-- A start inside the first frame, a gap and none between frames, a byte after the last, and a body that is not clean. -/
theorem witness_CleanDevicesAreNeverFalselySynchronized :
    (∀ g ∈ cleanStream, (∀ b ∈ g.gap, b ≠ 0xC0#8) ∧ cleanBody g.body = true) ∧ (∀ b ∈ ([0x80#8] : List Byte), b ≠ 0xC0#8) ∧
      cleanBody bodyB = false ∧
      framesOf ((cleanStream.flatMap Segment.bytes ++ [0x80#8]).drop 5) = [zeros.toList, zeros.toList] := by decide

end Sys2Proof.Tests
end

section
/-! PROOFS of the family 10_state: the reset state (R32) and the writers of `cause` (R27). -/

namespace Sys2Proof.Machine

/-! ## Decoding and stepping in a named position -/

/-- Rows 4 and 8 of R74. -/
theorem decode_of_readFailure {f : Fetch} (rst : f.rst = false) (phase : f.phase = .seeking ∨ f.phase = .readingFrame)
    (offer : f.rxOffer = none) (err : f.rxErr = true) : decode f = .rxerr := by
  rcases phase with phase | phase <;> simp [decode, decodeNoByte, rst, phase, offer, err]

/-- Row 25 of R74. -/
theorem decode_of_halted {f : Fetch} (rst : f.rst = false) (phase : f.phase = .halted) : decode f = .wait := by
  simp [decode, rst, phase]

/-- In HALTED without RESET an edge passes and does nothing else. -/
theorem step_of_halted {s : State} (rst : s.edge.rst = false) (phase : s.phase = .halted) :
    step s = .next s.advance := by
  have hwait : decode s.fetch = .wait := decode_of_halted rst phase
  exact (step_next_iff s _).2 ⟨s, by rw [hwait, exec_wait], rfl⟩

/-! ## Who writes `cause`, and that nothing reads it -/

/-- A step that changes `cause` is RESET, the twelfth transfer with a stop request, or RXERR. -/
theorem StepCase.writer_of_cause_ne {s t : State} (h : StepCase s t) (ne : t.cause ≠ s.cause) :
    (s.edge.rst = true ∧ t.cause = .none) ∨
    (s.edge.rst = false ∧ s.phase = .dispatch ∧ s.eidx = 11 ∧ s.edge.evReady = true ∧ s.edge.stopReq = true ∧
      t.cause = .stopped) ∨
    (decode s.fetch = .rxerr ∧ t.cause = .transportRead) := by
  cases h with
  | reset rst => exact .inl ⟨rst, rfl⟩
  | emitStop rst phase ready index stop => exact .inr (.inl ⟨rst, phase, index, ready, stop, rfl⟩)
  | rxerr rst phase offer err => exact .inr (.inr ⟨decode_of_readFailure rst phase offer err, rfl⟩)
  | sync | skip | capt | captl | flush | emit | emitLast | wait => exact absurd rfl ne

/-- The meaning of an operation does not read `cause`: from another cause it leaves a state that differs in `cause` alone.
Only EMITB0 has a branch, on `stop_req`; every other meaning is one record update. -/
theorem exec_of_other_cause {i : Instr} {s t : State} (c : Cause) (h : exec i s = .next t) :
    ∃ c', exec i { s with cause := c } = .next { t with cause := c' } := by
  cases i with
  | emitb0 =>
    cases hs : s.edge.stopReq with
    | false =>
      cases (exec_emit_last_to_seeking s hs).symm.trans h
      exact ⟨c, exec_emit_last_to_seeking _ hs⟩
    | true =>
      cases (exec_emit_last_to_halted s hs).symm.trans h
      exact ⟨.stopped, exec_emit_last_to_halted _ hs⟩
  | _ => cases h; exact ⟨_, rfl⟩

/-- A step does not read `cause`: neither the decoder nor any meaning does. -/
theorem step_of_other_cause {s t : State} (c : Cause) (h : step s = .next t) :
    ∃ c', step { s with cause := c } = .next { t with cause := c' } := by
  obtain ⟨u, hu, rfl⟩ := (step_next_iff s t).1 h
  obtain ⟨c', hu'⟩ := exec_of_other_cause c hu
  exact ⟨c', (step_next_iff _ _).2 ⟨_, hu', rfl⟩⟩

/-! ## The obligations -/

/-- Settles O37: a set cause means HALTED, where an edge without RESET does nothing; the writers are read off the inversion
of the step; and the step from another cause differs in `cause` alone. -/
theorem causeIsWrittenOnlyByStopFaultAndReset : Obligations.CauseIsWrittenOnlyByStopFaultAndReset := by
  refine ⟨?kept, ?writers, ?unread, rfl, rfl, rfl⟩
  case kept =>
    rintro s t ⟨halted_iff, -, -⟩ rst ne h
    have halted : s.phase = .halted := halted_iff.2 ne
    cases (step_of_halted rst halted).symm.trans h
    rfl
  case writers =>
    intro s t h ne
    exact (stepCase_of_step s t h).writer_of_cause_ne ne
  case unread =>
    intro s t c h
    obtain ⟨c', hu⟩ := step_of_other_cause c h
    exact ⟨_, hu, rfl, rfl, rfl, sameSlots_of_fb _ _ rfl, rfl, rfl⟩

/-- Settles O1: each value and output is read off the reset state. -/
theorem resetStateHasTheValuesOfTheTable : Obligations.ResetStateHasTheValuesOfTheTable :=
  ⟨rfl, rfl, rfl, rfl, rfl, rfl, rfl, rfl, rfl⟩

end Sys2Proof.Machine
end

section
/-! PROOFS of the family 20_memory: the event port's offer (R49). -/

namespace Sys2Proof.Machine

/-! ## The outputs of the event port -/

theorem State.evValid_iff (s : State) : s.evValid = true ↔ s.phase = .dispatch := by
  simp [State.evValid]

theorem State.evWord_of_dispatch {s : State} (phase : s.phase = .dispatch) : s.evWord = eventWord s.fb s.eidx :=
  if_pos (s.evValid_iff.2 phase)

/-! ## An edge in DISPATCH -/

/-- Row 24 of R74. -/
theorem decode_of_stalled {f : Fetch} (rst : f.rst = false) (phase : f.phase = .dispatch) (stall : f.evReady = false) :
    decode f = .wait := by
  simp [decode, rst, phase, stall]

/-- In DISPATCH without RESET, while the sink is not ready, an edge passes and does nothing else. -/
theorem step_of_stalled {s : State} (rst : s.edge.rst = false) (phase : s.phase = .dispatch)
    (stall : s.edge.evReady = false) : step s = .next s.advance := by
  have hwait : decode s.fetch = .wait := decode_of_stalled rst phase stall
  exact (step_next_iff s _).2 ⟨s, by rw [hwait, exec_wait], rfl⟩

/-- An edge in DISPATCH is RESET, a stall at which only the edge passes, or the transfer of the offered word. -/
theorem StepCase.reset_or_stall_or_transfer {s t : State} (h : StepCase s t) (dispatch : s.phase = .dispatch) :
    s.edge.rst = true ∨ (s.edge.rst = false ∧ s.edge.evReady = false ∧ t = s.advance) ∨
    (s.edge.rst = false ∧ s.edge.evReady = true ∧ PutsEvent s.evWord s t) := by
  cases h with
  | reset rst => exact .inl rst
  | wait rst idle =>
    have stall : s.edge.evReady = false := by simpa [dispatch] using idle
    exact .inr (.inl ⟨rst, stall, rfl⟩)
  | emit next rst _ ready =>
    rw [State.evWord_of_dispatch dispatch]
    exact .inr (.inr ⟨rst, ready, rfl⟩)
  | emitLast rst _ ready index | emitStop rst _ ready index =>
    rw [State.evWord_of_dispatch dispatch, index]
    exact .inr (.inr ⟨rst, ready, rfl⟩)
  | sync _ phase | skip _ _ phase | capt _ _ _ phase | captl _ _ phase | rxerr _ phase | flush _ phase =>
    simp [dispatch] at phase

/-! ## The obligation -/

/-- Settles O18: a stalled edge changes neither phase, index nor slots, so the offer stays; of the three things an edge in
DISPATCH can be, the stall is the one that cannot leave `ev_valid` at 0. -/
theorem offeredWordIsHeldUntilTaken : Obligations.OfferedWordIsHeldUntilTaken := by
  refine ⟨fun s => ⟨s.evValid_iff, fun valid => State.evWord_of_dispatch (s.evValid_iff.1 valid)⟩, ?held, ?withdrawn⟩
  case held =>
    intro s phase rst stall
    have phase' : s.advance.phase = .dispatch := phase
    refine ⟨s.advance, step_of_stalled rst phase stall, s.advance.evValid_iff.2 phase', ?_⟩
    rw [State.evWord_of_dispatch phase', State.evWord_of_dispatch phase, State.advance_fb, State.advance_eidx]
  case withdrawn =>
    intro s t phase h invalid
    rcases (stepCase_of_step s t h).reset_or_stall_or_transfer phase with rst | ⟨-, -, rfl⟩ | ⟨-, -, puts⟩
    · exact .inl rst
    · have valid : s.advance.evValid = true := s.advance.evValid_iff.2 phase
      simp [valid] at invalid
    · exact .inr puts

end Sys2Proof.Machine
end

section
/-! PROOFS of the family 30_encoding: the selection table (R74), the input byte (R75), the knob pair (R76) and the row byte
(R80). -/

namespace Sys2Proof.Machine

/-! ## The selection table (R74) -/

/-- The operations of the rows whose condition holds, in the order of the rows. -/
def selectedOps (f : Fetch) (rows : List SelectRow) : List Instr := (rows.filter (·.holds f)).map (·.op f)

theorem countP_holds_eq_length_selectedOps (f : Fetch) (rows : List SelectRow) :
    rows.countP (fun r => r.holds f) = (selectedOps f rows).length := by
  rw [selectedOps, List.length_map, List.countP_eq_length_filter]

theorem firstRow_eq_head?_selectedOps (f : Fetch) (rows : List SelectRow) :
    firstRow f rows = (selectedOps f rows).head? := by
  induction rows with
  | nil => rfl
  | cons r rs ih => by_cases h : r.holds f = true <;> simp [firstRow, selectedOps, h, ih]

/-- Row 1 comes first and is RESET. -/
theorem firstRow_selectTable (f : Fetch) :
    firstRow f selectTable = if f.rst then some .reset else firstRow f (selectTable.drop 1) := rfl

/-- The rows below the first do not look at `rst`. -/
theorem holds_lower_of_other_rst (f : Fetch) (b : Bool) :
    ∀ r ∈ selectTable.drop 1, r.holds { f with rst := b } = r.holds f :=
  List.map_inj_left.1 rfl

/-- The slot operand of CAPT, where row 6 selects it. -/
theorem fetch_slot_of_castSucc {f : Fetch} {slot : Fin Config.lastSlot} (cnt : f.cnt = slot.castSucc) :
    f.slot = slot := by
  have le : slot.val ≤ 16 := Nat.le_of_lt_succ slot.isLt
  have eq : f.cnt.val = slot.val := congrArg Fin.val cnt
  exact Fin.ext (by simp only [Fetch.slot, eq]; omega)

/-- Rows 11 to 23: in DISPATCH with a ready sink the row of the index is selected; at index 11 that is row 22 or 23, and
both are EMITB0. -/
theorem selectedOps_of_ready {f : Fetch} (phase : f.phase = .dispatch) (ready : f.evReady = true) :
    selectedOps f (selectTable.drop 1) = [emitOf f.eidx] := by
  obtain ⟨_, _, eidx, _, _, _, _, stop, _⟩ := f
  cases phase
  cases ready
  cases stop <;> fin_cases eidx <;> rfl

/-- Without RESET exactly one of rows 2 to 25 holds, and its operation is the decoded one: each case of the decoder makes
the condition of one row true and those of the others false. -/
theorem selectedOps_lower {f : Fetch} (rst : f.rst = false) : selectedOps f (selectTable.drop 1) = [decode f] := by
  have emits := selectedOps_of_ready (f := f)
  simp only [selectedOps, selectTable, receiveRows, emitRow, lastRows, Fetch.rxValid, Fetch.byte] at emits ⊢
  rcases decode_cases f with ⟨reset, -⟩ | ⟨-, phase, offer, d⟩ | ⟨b, -, phase, offer, ne, d⟩ |
    ⟨slot, b, -, phase, offer, cnt, d⟩ | ⟨b, -, phase, offer, cnt, d⟩ | ⟨-, phase | phase, offer, err, d⟩ |
    ⟨-, phase, d⟩ | ⟨-, phase, ready, d⟩ | ⟨-, ⟨phase | phase, offer, err⟩ | ⟨phase, stall⟩ | phase, d⟩
  · simp [rst] at reset
  · simp [phase, offer, d]
  · simp [phase, offer, ne, d]
  · have le : slot.val ≤ 16 := Nat.le_of_lt_succ slot.isLt
    have ne : slot.val ≠ 17 := by omega
    simp [phase, offer, cnt, le, ne, fetch_slot_of_castSucc cnt, d]
  · simp [phase, offer, cnt, d]
  · simp [phase, offer, err, d]
  · simp [phase, offer, err, d]
  · simp [phase, d]
  · rw [d, emits phase ready]
  · simp [phase, offer, err, d]
  · simp [phase, offer, err, d]
  · simp [phase, stall, d]
  · simp [phase, d]

/-! ## The input byte (R75) -/

theorem decodeSeeking_marker : decodeSeeking Config.marker = .sync := if_pos rfl

theorem decodeSeeking_of_ne {b : Byte} (ne : b ≠ Config.marker) : decodeSeeking b = .skip b := if_neg ne

theorem decodeBody_castSucc (slot : Fin Config.lastSlot) (b : Byte) : decodeBody slot.castSucc b = .capt slot b :=
  dif_pos slot.isLt

theorem decodeBody_last (b : Byte) : decodeBody (Fin.last Config.lastSlot) b = .captl b :=
  dif_neg (Nat.lt_irrefl _)

/-! ## The knob pair (R76) -/

/-- Bit `k` of the raw word is the OR of bit `k` of the low byte and the bit of the high byte that the shift by seven
brings there. -/
theorem rawWord_getLsbD (lo hi : Byte) {k : Nat} (hk : k < 15) :
    (rawWord lo hi).getLsbD k = ((!decide (k < 7) && hi.getLsbD (k - 7)) || lo.getLsbD k) := by
  simp [rawWord, Config.rawW, Config.knobShift, hk]

/-! ## The row byte (R80) -/

/-- The mask `2 ^ i` as the word with bit `i` alone. -/
theorem rowMask_eq_twoPow (i : Nat) : BitVec.ofNat 8 (2 ^ i) = BitVec.twoPow 8 i :=
  BitVec.eq_of_toNat_eq (by rw [BitVec.toNat_ofNat, BitVec.toNat_twoPow])

/-- A test with a mask of one bit reads that bit. -/
theorem maskTest_eq_getLsbD (b : Byte) {i : Nat} (hi : i < 8) :
    decide (b &&& BitVec.ofNat 8 (2 ^ i) = BitVec.ofNat 8 (2 ^ i)) = b.getLsbD i := by
  have ne : 0#8 ≠ BitVec.twoPow 8 i := fun h => by simpa [hi] using congrArg (·.getLsbD i) h
  rw [rowMask_eq_twoPow, BitVec.and_twoPow]
  cases b.getLsbD i <;> simp [ne]

/-- The masks of R80 are the powers of two from `2 ^ 5` down. -/
theorem rowFlags_eq_map_maskTest (b : Byte) :
    rowFlags b =
      (List.range 6).map fun t => decide (b &&& BitVec.ofNat 8 (2 ^ (5 - t)) = BitVec.ofNat 8 (2 ^ (5 - t))) := rfl

theorem rowFlags_eq_map_getLsbD (b : Byte) : rowFlags b = (List.range 6).map fun t => b.getLsbD (5 - t) := by
  rw [rowFlags_eq_map_maskTest]
  exact List.map_congr_left fun t _ => maskTest_eq_getLsbD b (by omega)

/-- The connection field carries the flags, the first in its bit 5 (R84). -/
theorem connections_rowConn (b : Byte) : connections (rowConn b) = rowFlags b := by
  rw [rowFlags_eq_map_getLsbD]
  refine List.map_congr_left fun t _ => ?_
  have inField : 5 - t < 6 := by omega
  simp [rowConn, Config.rowBits, inField]

/-! ## The obligations -/

/-- Settles O19: among the rows below the first, which do not look at `rst`, the decoder's case selects its own row and no
other; the first row takes precedence as RESET does. -/
theorem decodeIsTheFirstRowOfTheSelectionTable : Obligations.DecodeIsTheFirstRowOfTheSelectionTable := by
  refine ⟨fun f => ?first, fun f => ?unique, rfl⟩
  case first =>
    rw [firstRow_selectTable]
    cases rst : f.rst with
    | true => simp [decode, rst]
    | false => rw [firstRow_eq_head?_selectedOps, selectedOps_lower rst]; rfl
  case unique =>
    have running : ({ f with rst := false } : Fetch).rst = false := rfl
    calc (selectTable.drop 1).countP (fun r => r.holds f)
        = (selectTable.drop 1).countP (fun r => r.holds { f with rst := false }) :=
          List.countP_congr fun r hr => by rw [holds_lower_of_other_rst f false r hr]
      _ = 1 := by rw [countP_holds_eq_length_selectedOps, selectedOps_lower running, List.length_singleton]

/-- Settles O20: the marker test while seeking, and `cnt` alone while reading. -/
theorem everyByteValueDecodes : Obligations.EveryByteValueDecodes :=
  ⟨fun _ => congrArg Except.ok decodeSeeking_marker, fun _ _ ne => congrArg Except.ok (decodeSeeking_of_ne ne),
    fun slot b => congrArg Except.ok (decodeBody_castSucc slot b), fun b => congrArg Except.ok (decodeBody_last b)⟩

/-- Settles O23: below bit 7 the shift brings nothing, above it the low byte has no bit. -/
theorem rawWordBitByBit : Obligations.RawWordBitByBit := by
  intro lo hi
  refine ⟨fun k hk => ?low, ?shared, fun k hge hle => ?high⟩
  case low => simp [rawWord_getLsbD lo hi (by omega : k < 15), hk]
  case shared => simp [rawWord_getLsbD]
  case high =>
    have beyond : lo.getLsbD k = false := lo.getLsbD_of_ge k hge
    simp [rawWord_getLsbD lo hi (by omega : k < 15), beyond, (by omega : 7 ≤ k)]

/-- Settles O24: the flags are the mask tests, each mask test reads one of bits 5 to 0, and so does the connection field. -/
theorem rowFlagsAreBitsFiveDownToZero : Obligations.RowFlagsAreBitsFiveDownToZero := by
  refine ⟨fun b => ⟨?length, fun t ht => ?bit, fun t ht => ?maskTest, connections_rowConn b⟩, fun b c lowSix => ?onlyLowSix⟩
  case length => rfl
  case bit => simp [rowFlags_eq_map_getLsbD, ht]
  case maskTest => simp [rowFlags_eq_map_maskTest, ht]
  case onlyLowSix =>
    calc rowFlags b = connections (rowConn b) := (connections_rowConn b).symm
      _ = connections (rowConn c) := congrArg connections lowSix
      _ = rowFlags c := connections_rowConn c

end Sys2Proof.Machine
end

section
/-! PROOFS of the family 40_scaler: the one range-mapper of the block (R104). -/

namespace Sys2Proof.Machine

/-! ## The configuration `Config.scaler` -/

/-- `Q(v)` of the block: gain `1/1024`, offset 0. -/
theorem exactValue_configScaler (v : Nat) : exactValue Config.scaler v = (v : ℚ) / 1024 := by
  simp [exactValue, Config.scaler]

/-- The ten fraction bits cancel the source width 1024, so the floor has nothing to round. -/
theorem scaleInt_configScaler (v : Nat) : scaleInt Config.scaler v = v :=
  calc scaleInt Config.scaler v
      = Int.fdiv ((v : Int) * 1024) 1024 := by simp [scaleInt, Config.scaler, Config.valF]
    _ = v := Int.mul_fdiv_cancel _ (by decide)

/-- The field holds the number of the raw word, which its 15 bits can hold. -/
theorem scale_eq_self (raw : RawWord) : scale raw = raw :=
  calc scale raw
      = (BitVec.ofInt Config.valW (scaleInt Config.scaler raw.toNat)).setWidth Config.rawW := rfl
    _ = BitVec.ofInt Config.valW raw.toNat := by rw [scaleInt_configScaler, BitVec.setWidth_eq]
    _ = raw := by rw [BitVec.ofInt_natCast, BitVec.ofNat_toNat, BitVec.setWidth_eq]

/-- Without a shift the multiply-add form is the affine map itself (R106). -/
theorem mulAdd_shift_zero (m a : Int) (v : Nat) : mulAdd m a 0 v = m * v + a :=
  Int.shiftRight_zero _

/-! ## The obligation -/

/-- Settles O25: the source width 1024 is the scale `2 ^ 10` of the field, so the field of `v` is `v` itself. -/
theorem theInstanceOfScaleIsTheIdentity : Obligations.TheInstanceOfScaleIsTheIdentity := by
  refine fun raw => ⟨scale_eq_self raw, exactValue_configScaler raw.toNat, ?exact, ?mulAdd⟩
  case exact =>
    rw [scaleInt_configScaler, exactValue_configScaler]
    norm_num [Config.valF]
  case mulAdd => rw [mulAdd_shift_zero, one_mul, add_zero]

end Sys2Proof.Machine
end

section
/-! PROOFS of the family 41_frame_decoder: the twelve EMIT operations (R130 to R142) and the order of a frame's events
(R120, R125). -/

namespace Sys2Proof.Machine

/-! ## Which edge decodes to an EMIT -/

theorem emitOf_ne_reset (e : EventIndex) : emitOf e ≠ .reset := by revert e; decide

theorem emitOf_ne_wait (e : EventIndex) : emitOf e ≠ .wait := by revert e; decide

/-- The EMITs stand in one row of R24's column of enabled operations. -/
theorem dispatch_of_emit_enabled {p : Phase} {e : EventIndex}
    (enabled : Laws.EnabledPhase.enabledIn p (emitOf e) = true) : p = .dispatch := by
  cases p with
  | dispatch => rfl
  | seeking | readingFrame | flush | halted => revert e; decide

/-- Rows 11 to 23 of R74. -/
theorem decode_of_ready {f : Fetch} (rst : f.rst = false) (phase : f.phase = .dispatch) (ready : f.evReady = true) :
    decode f = emitOf f.eidx := by
  simp [decode, rst, phase, ready]

/-- An edge decodes to an EMIT by rows 11 to 23 of R74 alone: EMITs are enabled in DISPATCH only, and there an edge without
a ready sink is WAIT. -/
theorem decode_eq_emitOf_iff (f : Fetch) (e : EventIndex) :
    decode f = emitOf e ↔ f.rst = false ∧ f.phase = .dispatch ∧ f.evReady = true ∧ f.eidx = e := by
  constructor
  case mp =>
    intro d
    rcases Laws.EnabledPhase.of_decode (emitOf e) f d with ⟨-, reset⟩ | ⟨rst, enabled⟩
    · exact absurd reset (emitOf_ne_reset e)
    have phase : f.phase = .dispatch := dispatch_of_emit_enabled enabled
    cases ready : f.evReady with
    | false => exact absurd (d.symm.trans (decode_of_stalled rst phase ready)) (emitOf_ne_wait e)
    | true =>
      have same : emitOf f.eidx = emitOf e := (decode_of_ready rst phase ready).symm.trans d
      exact ⟨rst, phase, rfl, emitOf_injective _ _ same⟩
  case mpr =>
    rintro ⟨rst, phase, ready, rfl⟩
    exact decode_of_ready rst phase ready

/-- An edge that leaves DISPATCH is RESET or the twelfth transfer. -/
theorem StepCase.reset_or_emitb0_of_leaves {s t : State} (h : StepCase s t) (dispatch : s.phase = .dispatch)
    (leaves : t.phase ≠ .dispatch) : s.edge.rst = true ∨ decode s.fetch = .emitb0 := by
  cases h with
  | reset rst => exact .inl rst
  | emitLast rst _ ready index | emitStop rst _ ready index =>
    exact .inr ((decode_eq_emitOf_iff s.fetch 11).2 ⟨rst, dispatch, ready, index⟩)
  | emit | wait => exact absurd dispatch leaves
  | sync _ phase | skip _ _ phase | capt _ _ _ phase | captl _ _ phase | rxerr _ phase | flush _ phase =>
    simp [dispatch] at phase

/-! ## What an EMIT does -/

/-- EMITB0 (R142): the twelfth word and index 0, then SEEKING or, with a stop request, the effect of STOP. -/
theorem exec_emitb0 (s : State) : exec .emitb0 s =
    .next { s.evPut (eventWord s.fb 11) with
      eidx := 0
      phase := if s.edge.stopReq then .halted else .seeking
      cause := if s.edge.stopReq then .stopped else s.cause } := by
  cases stop : s.edge.stopReq with
  | false => exact exec_emit_last_to_seeking s stop
  | true => exact exec_emit_last_to_halted s stop

/-- The EMIT of any index transfers the word of that index; the index moves on, or the frame ends (R130). -/
theorem exec_emit_transfers (e : EventIndex) (s : State) :
    ∃ t, exec (emitOf e) s = .next t ∧ PutsEvent (eventWord s.fb e) s t ∧ SameSlots s t ∧ t.cnt = s.cnt ∧
      (e.val ≤ 10 → t.eidx.val = e.val + 1 ∧ t.phase = s.phase ∧ t.cause = s.cause) ∧
      (e = 11 → s.edge.stopReq = false → t.eidx = 0 ∧ t.phase = .seeking ∧ t.cause = s.cause) := by
  by_cases last : e = 11
  case pos =>
    subst last
    refine ⟨_, exec_emitb0 s, rfl, sameSlots_of_fb _ _ rfl, rfl, fun before => absurd before (by decide), ?_⟩
    intro _ stop
    simp [stop]
  case neg =>
    have lt : e.val + 1 < 12 := by
      have := eventIndex_lt e
      have : e.val ≠ 11 := fun eq => last (Fin.ext eq)
      omega
    exact ⟨_, exec_emit_before_last e ⟨e.val + 1, lt⟩ rfl s, rfl, sameSlots_of_fb _ _ rfl, rfl,
      fun _ => ⟨rfl, rfl, rfl⟩, fun eq => absurd eq last⟩

/-- An EMIT of an index up to 10 is as R130 describes it, whatever form its word is written in. -/
theorem emitsAndMovesOn_of_word {e next : EventIndex} {word : State → EvWord} (index : next.val = e.val + 1)
    (eq : ∀ s : State, eventWord s.fb e = word s) : EmitsAndMovesOn (emitOf e) e next word := by
  refine fun s => ⟨decode_eq_emitOf_iff s.fetch e, _, exec_emit_before_last e next index s, ?_⟩
  rw [eq s]
  exact ⟨rfl, rfl, rfl, rfl, rfl, sameSlots_of_fb _ _ rfl, ⟨rfl, rfl⟩, ⟨rfl, rfl, rfl⟩⟩

/-! ## Event words read back (R82 to R85) -/

theorem knobWord_kind (id : BitVec 3) (val : RawWord) : (knobWord id val).getLsbD 18 = false := by
  rw [knobWord, BitVec.getLsbD_append, BitVec.getLsbD_append]
  rfl

theorem knobWord_id (id : BitVec 3) (val : RawWord) : (knobWord id val).extractLsb' 15 3 = id := by
  rw [knobWord, BitVec.extractLsb'_append_eq_of_le (Nat.le_refl 15)]
  exact BitVec.extractLsb'_append_eq_right

theorem knobWord_val (id : BitVec 3) (val : RawWord) : (knobWord id val).extractLsb' 0 Config.rawW = val :=
  BitVec.extractLsb'_append_eq_right

theorem bayWord_kind (id : BitVec 3) (conn : BitVec Config.rowBits) : (bayWord id conn).getLsbD 18 = true := by
  rw [bayWord, BitVec.getLsbD_append, BitVec.getLsbD_append, BitVec.getLsbD_append]
  rfl

theorem bayWord_id (id : BitVec 3) (conn : BitVec Config.rowBits) : (bayWord id conn).extractLsb' 15 3 = id := by
  rw [bayWord, BitVec.extractLsb'_append_eq_of_le (by decide), BitVec.extractLsb'_append_eq_of_le (by decide)]
  exact BitVec.extractLsb'_append_eq_right

theorem bayWord_zeros (id : BitVec 3) (conn : BitVec Config.rowBits) : (bayWord id conn).extractLsb' 6 9 = 0#9 := by
  rw [bayWord, BitVec.extractLsb'_append_eq_of_le (by decide)]
  exact BitVec.extractLsb'_append_eq_right

theorem bayWord_conn (id : BitVec 3) (conn : BitVec Config.rowBits) :
    (bayWord id conn).extractLsb' 0 Config.rowBits = conn :=
  BitVec.extractLsb'_append_eq_right

/-- The id field holds an id whole. -/
theorem idField_toNat (id : Fin 6) : (BitVec.ofNat 3 id.val).toNat = id.val := by revert id; decide

/-- The decoder of event words inverts the encoder. -/
theorem decodeEvent_toWord (e : Event) : decodeEvent e.toWord = .ok e := by
  cases e with
  | knob id val =>
    simp only [Event.toWord, decodeEvent, knobWord_kind, knobWord_id, knobWord_val, idField_toNat, id.isLt, ↓reduceIte,
      ↓reduceDIte]
  | bay id conn =>
    simp only [Event.toWord, decodeEvent, bayWord_kind, bayWord_id, bayWord_zeros, bayWord_conn, idField_toNat, id.isLt,
      Bool.true_eq_false, ↓reduceIte, ↓reduceDIte]

theorem map_decodeEvent_map_toWord (es : List Event) : (es.map Event.toWord).map decodeEvent = es.map .ok := by
  rw [List.map_map]
  exact List.map_congr_left fun e _ => decodeEvent_toWord e

/-! ## The twelve events of a frame -/

/-- The words of a frame are those of these events (R120, R125): the range-mapper leaves every raw word as it is (R104). -/
theorem frameEvents_eq_map_toWord (fb : Vector Byte 18) : frameEvents fb =
    [ Event.knob 5 (rawWord fb[0] fb[1]), .knob 4 (rawWord fb[2] fb[3]), .knob 3 (rawWord fb[4] fb[5]),
      .knob 2 (rawWord fb[6] fb[7]), .knob 1 (rawWord fb[8] fb[9]), .knob 0 (rawWord fb[10] fb[11]),
      .bay 5 (rowConn fb[12]), .bay 4 (rowConn fb[13]), .bay 3 (rowConn fb[14]), .bay 2 (rowConn fb[15]),
      .bay 1 (rowConn fb[16]), .bay 0 (rowConn fb[17]) ].map Event.toWord := by
  simp only [frameEvents_eq, scale_eq_self]
  rfl

/-- The words of a frame stand in the order of their indices. -/
theorem frameEvents_getElem? (fb : Vector Byte 18) (e : EventIndex) :
    (frameEvents fb)[e.val]? = some (eventWord fb e) := by
  have order : eventOrder[e.val]? = some e := by revert e; decide
  rw [frameEvents, List.getElem?_map, order, Option.map_some]

/-! ## The obligations -/

/-- Settles O14: each is the EMIT of its index, and `W` of the index is the word of the pattern, with the id's bits written
out. -/
theorem knobEmitsTransferTheScaledPair : Obligations.KnobEmitsTransferTheScaledPair :=
  ⟨emitsAndMovesOn_of_word (e := 0) rfl fun _ => rfl,
   emitsAndMovesOn_of_word (e := 1) rfl fun _ => rfl,
   emitsAndMovesOn_of_word (e := 2) rfl fun _ => rfl,
   emitsAndMovesOn_of_word (e := 3) rfl fun _ => rfl,
   emitsAndMovesOn_of_word (e := 4) rfl fun _ => rfl,
   emitsAndMovesOn_of_word (e := 5) rfl fun _ => rfl⟩

/-- Settles O15: as for the knobs, with the id and the nine zero bits written out. -/
theorem rowEmitsTransferTheSixFlags : Obligations.RowEmitsTransferTheSixFlags :=
  ⟨emitsAndMovesOn_of_word (e := 6) rfl fun _ => rfl,
   emitsAndMovesOn_of_word (e := 7) rfl fun _ => rfl,
   emitsAndMovesOn_of_word (e := 8) rfl fun _ => rfl,
   emitsAndMovesOn_of_word (e := 9) rfl fun _ => rfl,
   emitsAndMovesOn_of_word (e := 10) rfl fun _ => rfl⟩

/-- Settles O16: the ways out of DISPATCH are read off the inversion of the step, and EMITB0 is the EMIT of index 11. -/
theorem emitb0TransfersTheLastEventAndEndsTheFrame : Obligations.Emitb0TransfersTheLastEventAndEndsTheFrame := by
  refine ⟨fun s t phase h => (stepCase_of_step s t h).reset_or_emitb0_of_leaves phase, fun s =>
    ⟨decode_eq_emitOf_iff s.fetch 11, _, exec_emitb0 s, rfl, rfl, rfl, sameSlots_of_fb _ _ rfl, ⟨rfl, rfl⟩,
      ⟨rfl, rfl, rfl⟩, ?seeking, ?halted⟩⟩
  case seeking => intro stop; simp [stop]
  case halted => intro stop; simp [stop]

/-- Settles O17: the offer is `W(eidx)`, and the edge that takes it is the EMIT of that index. -/
theorem readySinkGetsTheOfferedWord : Obligations.ReadySinkGetsTheOfferedWord := by
  refine ⟨fun s => State.evWord_of_dispatch, eventWord_of_lt, eventWord_of_ge, ?selected, ?transferred⟩
  case selected =>
    intro s e d
    obtain ⟨-, phase, ready, index⟩ := (decode_eq_emitOf_iff s.fetch e).1 d
    exact ⟨phase, index, ready⟩
  case transferred =>
    intro s rst phase ready
    exact ⟨decode_of_ready rst phase ready, exec_emit_transfers s.eidx s⟩

/-- Settles O43: a frame's words are those of the twelve events in order, each decodes to its event, and the word an edge
transfers is the one at the index, which then moves on. -/
theorem twelveEventsInTheFixedOrder : Obligations.TwelveEventsInTheFixedOrder := by
  refine ⟨?decoded, ?transferred⟩
  case decoded =>
    intro fb
    rw [frameEvents_eq_map_toWord, map_decodeEvent_map_toWord]
    rfl
  case transferred =>
    intro s t phase rst ready h
    obtain ⟨u, hu, rfl⟩ := (step_next_iff s t).1 h
    have emit : decode s.fetch = emitOf s.eidx := decode_of_ready rst phase ready
    obtain ⟨v, hv, puts, -, -, before, -⟩ := exec_emit_transfers s.eidx s
    rw [emit] at hu
    cases hv.symm.trans hu
    exact ⟨⟨_, frameEvents_getElem? s.fb s.eidx, puts⟩, fun le => (before le).1⟩

end Sys2Proof.Machine
end

section
/-! PROOFS of the family 42_frame_reader: SKIP, SYNC, CAPT, CAPTL and FLUSH (R164 to R168). -/

namespace Sys2Proof.Machine

/-! ## Which edge decodes to an operation that takes a byte -/

/-- The operations that begin with `b <- RxTake()` (R164 to R167). -/
def isIntake : Instr → Bool
  | .skip _ | .sync | .capt _ _ | .captl _ => true
  | _ => false

theorem isIntake_emitOf (e : EventIndex) : isIntake (emitOf e) = false := by revert e; decide

/-- What an offered byte decodes to, read backwards (R75). -/
theorem decodeByte_eq_ok_iff (p : Phase) (cnt : Slot) (b : Byte) (i : Instr) :
    decodeByte p cnt b = .ok i ↔
      (p = .seeking ∧ b = Config.marker ∧ i = .sync) ∨ (p = .seeking ∧ b ≠ Config.marker ∧ i = .skip b) ∨
      (∃ slot : Fin Config.lastSlot, p = .readingFrame ∧ cnt = slot.castSucc ∧ i = .capt slot b) ∨
      (p = .readingFrame ∧ cnt = Fin.last Config.lastSlot ∧ i = .captl b) := by
  cases p with
  | seeking =>
    by_cases marker : b = Config.marker
    · simp [decodeByte, marker, decodeSeeking_marker, eq_comm]
    · simp [decodeByte, marker, decodeSeeking_of_ne marker, eq_comm]
  | readingFrame =>
    cases cnt using Fin.lastCases with
    | last =>
      have d : decodeBody (Fin.last 17) b = .captl b := decodeBody_last b
      simp [-Fin.reduceLast, decodeByte, d, eq_comm, Fin.castSucc_ne_last]
    | cast slot => simp [-Fin.reduceLast, decodeByte, decodeBody_castSucc, eq_comm, Fin.castSucc_ne_last]
  | flush | dispatch | halted => simp [decodeByte]

/-- Rows 2, 3, 6 and 7 of R74: without RESET an offered byte that can be taken decides. -/
theorem decode_of_offered {f : Fetch} {b : Byte} {i : Instr} (rst : f.rst = false) (offer : f.rxOffer = some b)
    (d : decodeByte f.phase f.cnt b = .ok i) : decode f = i := by
  cases phase : f.phase with
  | seeking | readingFrame => simpa [decode, decodeByte, rst, phase, offer] using d
  | flush | dispatch | halted => simp [decodeByte, phase] at d

/-- An edge that takes a byte decodes as the byte it is offered does. -/
theorem exists_offered_of_isIntake {f : Fetch} (intake : isIntake (decode f) = true) :
    f.rst = false ∧ ∃ b, f.rxOffer = some b ∧ decodeByte f.phase f.cnt b = .ok (decode f) := by
  rcases decode_cases f with ⟨-, d⟩ | ⟨rst, phase, offer, d⟩ | ⟨b, rst, phase, offer, ne, d⟩ |
    ⟨slot, b, rst, phase, offer, cnt, d⟩ | ⟨b, rst, phase, offer, cnt, d⟩ | ⟨-, -, -, -, d⟩ | ⟨-, -, d⟩ |
    ⟨-, -, -, d⟩ | ⟨-, -, d⟩ <;> rw [d] at intake ⊢
  · cases intake
  · exact ⟨rst, _, offer, (decodeByte_eq_ok_iff ..).2 (.inl ⟨phase, rfl, rfl⟩)⟩
  · exact ⟨rst, b, offer, (decodeByte_eq_ok_iff ..).2 (.inr (.inl ⟨phase, ne, rfl⟩))⟩
  · exact ⟨rst, b, offer, (decodeByte_eq_ok_iff ..).2 (.inr (.inr (.inl ⟨slot, phase, cnt, rfl⟩)))⟩
  · exact ⟨rst, b, offer, (decodeByte_eq_ok_iff ..).2 (.inr (.inr (.inr ⟨phase, cnt, rfl⟩)))⟩
  · cases intake
  · cases intake
  · cases (isIntake_emitOf _).symm.trans intake
  · cases intake

/-- An operation that takes a byte is selected by the byte offered without RESET, and by nothing else. -/
theorem decode_eq_iff_of_isIntake {i : Instr} (intake : isIntake i = true) (f : Fetch) :
    decode f = i ↔ f.rst = false ∧ ∃ b, f.rxOffer = some b ∧ decodeByte f.phase f.cnt b = .ok i := by
  constructor
  case mp => rintro rfl; exact exists_offered_of_isIntake intake
  case mpr => rintro ⟨rst, b, offer, d⟩; exact decode_of_offered rst offer d

/-- Row 2 of R74. -/
theorem decode_eq_skip_iff (f : Fetch) (b : Byte) : decode f = .skip b ↔
    f.rst = false ∧ f.phase = .seeking ∧ f.rxOffer = some b ∧ b ≠ Config.marker := by
  simp [decode_eq_iff_of_isIntake (i := .skip b) rfl, decodeByte_eq_ok_iff, and_comm, and_assoc]

/-- Row 3 of R74. -/
theorem decode_eq_sync_iff (f : Fetch) : decode f = .sync ↔
    f.rst = false ∧ f.phase = .seeking ∧ f.rxOffer = some Config.marker := by
  simp [decode_eq_iff_of_isIntake (i := .sync) rfl, decodeByte_eq_ok_iff, and_left_comm]

/-- Row 6 of R74. -/
theorem decode_eq_capt_iff (f : Fetch) (slot : Fin Config.lastSlot) (b : Byte) : decode f = .capt slot b ↔
    f.rst = false ∧ f.phase = .readingFrame ∧ f.rxOffer = some b ∧ f.cnt = slot.castSucc := by
  simp [decode_eq_iff_of_isIntake (i := .capt slot b) rfl, decodeByte_eq_ok_iff, and_comm, and_assoc]

/-- Row 7 of R74. -/
theorem decode_eq_captl_iff (f : Fetch) (b : Byte) : decode f = .captl b ↔
    f.rst = false ∧ f.phase = .readingFrame ∧ f.rxOffer = some b ∧ f.cnt = Fin.last Config.lastSlot := by
  simp [decode_eq_iff_of_isIntake (i := .captl b) rfl, decodeByte_eq_ok_iff, and_comm, and_assoc]

/-! ## Which edge decodes to FLUSH -/

/-- FLUSH stands in one row of R24's column of enabled operations. -/
theorem flush_of_flush_enabled {p : Phase} {q : Nat}
    (enabled : Laws.EnabledPhase.enabledIn p (.flush q) = true) : p = .flush := by
  cases p with
  | flush => rfl
  | seeking | readingFrame | dispatch | halted => cases enabled

/-- Row 10 of R74. -/
theorem decode_of_flush {f : Fetch} (rst : f.rst = false) (phase : f.phase = .flush) : decode f = .flush f.drop := by
  simp [decode, rst, phase]

/-- FLUSH is what phase FLUSH does at every edge without RESET, with that edge's draw. -/
theorem decode_eq_flush_iff (f : Fetch) (q : Nat) :
    decode f = .flush q ↔ f.rst = false ∧ f.phase = .flush ∧ q = f.drop := by
  constructor
  case mp =>
    intro d
    rcases Laws.EnabledPhase.flush q f d with ⟨-, reset⟩ | ⟨rst, enabled⟩
    · cases reset
    have phase : f.phase = .flush := flush_of_flush_enabled enabled
    cases (decode_of_flush rst phase).symm.trans d
    exact ⟨rst, phase, rfl⟩
  case mpr =>
    rintro ⟨rst, phase, rfl⟩
    exact decode_of_flush rst phase

/-! ## The output of the receive port -/

theorem State.rxFlush_iff (s : State) : s.rxFlush = true ↔ s.phase = .flush := by
  simp [State.rxFlush]

/-! ## The obligations -/

/-- Settles O5: the meaning is RxTake alone. -/
theorem skipTakesTheByteAndNothingElse : Obligations.SkipTakesTheByteAndNothingElse :=
  ⟨fun s b => ⟨_, exec_skip b s, ⟨rfl, rfl⟩, ⟨rfl, rfl, rfl, rfl⟩, sameSlots_of_fb _ _ rfl, rfl, ⟨rfl, rfl, rfl⟩⟩,
    fun s => decode_eq_skip_iff s.fetch⟩

/-- Settles O6: the meaning is RxTake and two registers, so the marker is in no slot. -/
theorem syncTakesTheMarkerAndOpensAFrame : Obligations.SyncTakesTheMarkerAndOpensAFrame :=
  ⟨fun s => ⟨_, exec_sync s, ⟨rfl, rfl⟩, rfl, rfl, rfl, rfl, sameSlots_of_fb _ _ rfl, rfl, ⟨rfl, rfl, rfl⟩⟩,
    fun s => decode_eq_sync_iff s.fetch⟩

/-- Settles O7: one slot write, and `cnt` as a number is the slot it selects. -/
theorem captStoresTheByteInTheSlotOfCnt : Obligations.CaptStoresTheByteInTheSlotOfCnt := by
  refine ⟨fun s slot b => ?stored, fun s slot b => ?selected⟩
  case stored =>
    exact ⟨_, exec_capt slot b s, ⟨rfl, rfl⟩, State.slot_setSlot_same _ _ _,
      fun i ne => State.slot_setSlot_other _ _ i b ne, rfl, rfl, rfl, rfl, rfl, ⟨rfl, rfl, rfl⟩⟩
  case selected => simpa [Fin.ext_iff] using decode_eq_capt_iff s.fetch slot b

/-- Settles O8: one slot write, in the last slot, and the phase it leaves is not ready for a byte. -/
theorem captlStoresSlot17AndEndsIntake : Obligations.CaptlStoresSlot17AndEndsIntake := by
  refine ⟨fun s b => ?stored, fun s b => ?selected⟩
  case stored =>
    exact ⟨_, exec_captl b s, ⟨rfl, rfl⟩, State.slot_setSlot_same _ _ _,
      fun i ne => State.slot_setSlot_other _ _ i b ne, rfl, rfl, rfl, rfl, rfl, rfl, ⟨rfl, rfl, rfl⟩⟩
  case selected => simpa [Fin.ext_iff] using decode_eq_captl_iff s.fetch b

/-- Settles O9: the meaning is RxDiscard and two registers, for every draw. -/
theorem flushDropsTheDrawAndStartsDispatch : Obligations.FlushDropsTheDrawAndStartsDispatch :=
  ⟨fun s q => ⟨_, exec_flush q s, rfl, rfl, rfl, rfl, rfl, rfl, sameSlots_of_fb _ _ rfl, ⟨rfl, rfl, rfl⟩⟩,
    fun s => decode_eq_flush_iff s.fetch, State.rxFlush_iff⟩

end Sys2Proof.Machine
end

section
/-! PROOFS of the family 43_control: RESET and WAIT (R190, R192). -/

namespace Sys2Proof.Machine

/-! ## Which edge decodes to RESET -/

/-- R24's column of enabled operations leaves RESET out in every phase. -/
theorem reset_not_enabled (p : Phase) : Laws.EnabledPhase.enabledIn p .reset = false := by
  cases p <;> rfl

/-- Row 1 of R74. -/
theorem decode_of_reset {f : Fetch} (rst : f.rst = true) : decode f = .reset := if_pos rst

/-- RESET is what every edge with `rst` does, whatever the phase and the other inputs, and no edge without it. -/
theorem decode_eq_reset_iff (f : Fetch) : decode f = .reset ↔ f.rst = true := by
  constructor
  case mp =>
    intro d
    rcases Laws.EnabledPhase.reset f d with ⟨rst, -⟩ | ⟨-, enabled⟩
    · exact rst
    · cases (reset_not_enabled f.phase).symm.trans enabled
  case mpr => exact decode_of_reset

/-! ## Which edge decodes to WAIT -/

/-- Rows 5 and 9 of R74. -/
theorem decode_of_noByte {f : Fetch} (rst : f.rst = false) (phase : f.phase = .seeking ∨ f.phase = .readingFrame)
    (offer : f.rxOffer = none) (err : f.rxErr = false) : decode f = .wait := by
  rcases phase with phase | phase <;> simp [decode, decodeNoByte, rst, phase, offer, err]

/-- Rows 5, 9, 24 and 25 of R74: of the nine things an edge can decode to, the last alone is WAIT. -/
theorem decode_eq_wait_iff (f : Fetch) : decode f = .wait ↔ f.rst = false ∧
    (((f.phase = .seeking ∨ f.phase = .readingFrame) ∧ f.rxOffer = none ∧ f.rxErr = false) ∨
     (f.phase = .dispatch ∧ f.evReady = false) ∨ f.phase = .halted) := by
  constructor
  case mp =>
    intro wait
    rcases decode_cases f with ⟨-, d⟩ | ⟨-, -, -, d⟩ | ⟨_, -, -, -, -, d⟩ | ⟨_, _, -, -, -, -, d⟩ | ⟨_, -, -, -, -, d⟩ |
      ⟨-, -, -, -, d⟩ | ⟨-, -, d⟩ | ⟨-, -, -, d⟩ | ⟨rst, idle, -⟩
    · cases d.symm.trans wait
    · cases d.symm.trans wait
    · cases d.symm.trans wait
    · cases d.symm.trans wait
    · cases d.symm.trans wait
    · cases d.symm.trans wait
    · cases d.symm.trans wait
    · exact absurd (d.symm.trans wait) (emitOf_ne_wait f.eidx)
    · exact ⟨rst, idle⟩
  case mpr =>
    rintro ⟨rst, ⟨phase, offer, err⟩ | ⟨phase, stall⟩ | phase⟩
    · exact decode_of_noByte rst phase offer err
    · exact decode_of_stalled rst phase stall
    · exact decode_of_halted rst phase

/-! ## What RESET leaves of the event stream -/

/-- The record of the run that ends joins the earlier runs, so no transfer is undone (R59). -/
@[simp] theorem State.restart_eventStream (s : State) : s.restart.eventStream = s.eventStream := by
  simp [State.eventStream]

/-! ## The obligations -/

/-- Settles O11: `rst` alone selects RESET, and its meaning is the way back to SEEKING, a phase whose outputs discard and
offer nothing; the streams and the surroundings are not written. -/
theorem resetStartsAnewFromAnyState : Obligations.ResetStartsAnewFromAnyState :=
  ⟨fun s => decode_eq_reset_iff s.fetch, fun s => ⟨s.restart, exec_reset s, s.restart_phase, s.restart_cnt,
    s.restart_eidx, s.restart_cause, rfl, rfl, s.restart_rx, s.restart_eventStream, s.restart_inputs, s.restart_draw⟩⟩

/-- Settles O12: the meaning answers the state it is given, and the conditions are the four rows of WAIT. -/
theorem waitChangesNothing : Obligations.WaitChangesNothing :=
  ⟨exec_wait, fun s => decode_eq_wait_iff s.fetch⟩

end Sys2Proof.Machine
end

section
/-! PROOFS of the family 60_exceptions: the fault RXERR (R209, R210). -/

namespace Sys2Proof.Machine

/-! ## Which edge decodes to RXERR -/

/-- RXERR stands in two rows of R24's column of enabled operations, the phases that wait for a byte. -/
theorem waiting_of_rxerr_enabled {p : Phase} (enabled : Laws.EnabledPhase.enabledIn p .rxerr = true) :
    p = .seeking ∨ p = .readingFrame := by
  cases p with
  | seeking => exact .inl rfl
  | readingFrame => exact .inr rfl
  | flush | dispatch | halted => cases enabled

/-- A byte offered in a waiting phase is taken, whatever `rx_err` is (rows 2, 3, 6 and 7 of R74). -/
theorem isIntake_decode_of_offered {f : Fetch} {b : Byte} (rst : f.rst = false)
    (phase : f.phase = .seeking ∨ f.phase = .readingFrame) (offer : f.rxOffer = some b) : isIntake (decode f) = true := by
  rcases phase with seeking | reading
  · obtain rfl | ne := eq_or_ne b Config.marker
    · rw [(decode_eq_sync_iff f).2 ⟨rst, seeking, offer⟩]; rfl
    · rw [(decode_eq_skip_iff f b).2 ⟨rst, seeking, offer, ne⟩]; rfl
  · cases cnt : f.cnt using Fin.lastCases with
    | last => rw [(decode_eq_captl_iff f b).2 ⟨rst, reading, offer, cnt⟩]; rfl
    | cast slot => rw [(decode_eq_capt_iff f slot b).2 ⟨rst, reading, offer, cnt⟩]; rfl

/-- RXERR is what a waiting phase does without RESET when no byte is offered and the read fails: an offered byte would be
taken, and without the failure the edge is WAIT. -/
theorem decode_eq_rxerr_iff (f : Fetch) : decode f = .rxerr ↔
    f.rst = false ∧ (f.phase = .seeking ∨ f.phase = .readingFrame) ∧ f.rxOffer = none ∧ f.rxErr = true := by
  constructor
  case mp =>
    intro d
    rcases Laws.EnabledPhase.rxerr f d with ⟨-, reset⟩ | ⟨rst, enabled⟩
    · cases reset
    have phase : f.phase = .seeking ∨ f.phase = .readingFrame := waiting_of_rxerr_enabled enabled
    cases offer : f.rxOffer with
    | some b =>
      have intake : isIntake (decode f) = true := isIntake_decode_of_offered rst phase offer
      rw [d] at intake
      cases intake
    | none =>
      cases err : f.rxErr with
      | false => cases (decode_of_noByte rst phase offer err).symm.trans d
      | true => exact ⟨rst, phase, rfl, rfl⟩
  case mpr =>
    rintro ⟨rst, phase, offer, err⟩
    exact decode_of_readFailure rst phase offer err

/-! ## The obligation -/

/-- Settles O10: the meaning writes `phase` and `cause` alone, so `cnt`, `eidx` and the slots stay; HALTED and TRANSPORT_READ
fix the five outputs. -/
theorem rxerrHaltsWithCauseTransportRead : Obligations.RxerrHaltsWithCauseTransportRead := by
  refine ⟨fun s => ?halts, fun s => decode_eq_rxerr_iff s.fetch⟩
  case halts =>
    exact ⟨s.raiseTransportReadError, exec_rxerr s, s.raiseTransportReadError_phase, s.raiseTransportReadError_cause,
      s.raiseTransportReadError_cnt, s.raiseTransportReadError_eidx, sameSlots_of_fb _ _ s.raiseTransportReadError_fb,
      ⟨rfl, rfl⟩, s.raiseTransportReadError_events, ⟨rfl, rfl, rfl⟩, rfl, rfl, rfl, rfl, rfl⟩

end Sys2Proof.Machine
end

section
/-! PROOFS of the family other: what one step does and leaves, in every state. -/

namespace Sys2Proof.Machine

/-! ## A step forwards -/

/-- Each case of the inversion is what a step does under its condition. -/
theorem step_of_stepCase {s t : State} (h : StepCase s t) : step s = .next t := by
  have answer {i : Instr} {u : State} (d : decode s.fetch = i) (hu : exec i s = .next u) : step s = .next u.advance :=
    (step_next_iff s _).2 ⟨u, d ▸ hu, rfl⟩
  have emit {e : EventIndex} (rst : s.edge.rst = false) (phase : s.phase = .dispatch) (ready : s.edge.evReady = true)
      (index : s.eidx = e) : decode s.fetch = emitOf e :=
    (decode_eq_emitOf_iff s.fetch e).2 ⟨rst, phase, ready, index⟩
  cases h with
  | reset rst => exact answer (decode_of_reset rst) (exec_reset s)
  | sync rst phase offer => exact answer ((decode_eq_sync_iff s.fetch).2 ⟨rst, phase, offer⟩) (exec_sync s)
  | skip b rst phase offer ne => exact answer ((decode_eq_skip_iff s.fetch b).2 ⟨rst, phase, offer, ne⟩) (exec_skip b s)
  | capt slot b rst phase offer cnt =>
    exact answer ((decode_eq_capt_iff s.fetch slot b).2 ⟨rst, phase, offer, cnt⟩) (exec_capt slot b s)
  | captl b rst phase offer cnt =>
    exact answer ((decode_eq_captl_iff s.fetch b).2 ⟨rst, phase, offer, cnt⟩) (exec_captl b s)
  | rxerr rst phase offer err => exact answer (decode_of_readFailure rst phase offer err) (exec_rxerr s)
  | flush rst phase => exact answer (decode_of_flush rst phase) (exec_flush _ s)
  | emit next rst phase ready index =>
    exact answer (emit rst phase ready rfl) (exec_emit_before_last s.eidx next index s)
  | emitLast rst phase ready index stop =>
    exact answer (emit rst phase ready index) (exec_emit_last_to_seeking s stop)
  | emitStop rst phase ready index stop =>
    exact answer (emit rst phase ready index) (exec_emit_last_to_halted s stop)
  | wait rst idle => exact answer ((decode_eq_wait_iff s.fetch).2 ⟨rst, idle⟩) (exec_wait s)

/-- No operation ends in a fault or a refusal: EMITB0 has two branches, every other meaning is one record update. -/
theorem exists_exec_next (i : Instr) (s : State) : ∃ t, exec i s = .next t := by
  cases i with
  | emitb0 => exact ⟨_, exec_emitb0 s⟩
  | _ => exact ⟨_, rfl⟩

theorem exists_step_next (s : State) : ∃ t, step s = .next t := by
  obtain ⟨u, hu⟩ := exists_exec_next (decode s.fetch) s
  exact ⟨u.advance, (step_next_iff s _).2 ⟨u, hu, rfl⟩⟩

/-- Settles O31: a case split over what an edge can have done; each operation that halts sets the cause, and each that leaves
DISPATCH or READING_FRAME clears its counter. -/
theorem sequencerInvariantIsKept : Obligations.SequencerInvariantIsKept := by
  rintro s t ⟨halted_iff, cnt_zero, eidx_zero⟩ h
  cases stepCase_of_step s t h with
  | reset => simp [SequencerInv]
  | rxerr _ phase =>
    have notDispatch : s.phase ≠ .dispatch := by rintro dispatch; simp [dispatch] at phase
    simp [SequencerInv, eidx_zero notDispatch]
  | emitStop => simp [SequencerInv]
  | wait => exact ⟨halted_iff, cnt_zero, eidx_zero⟩
  | sync _ phase | skip _ _ phase | capt _ _ _ phase | captl _ _ phase | flush _ phase | emit _ _ phase
  | emitLast _ phase =>
    simp_all [SequencerInv]

/-! ## Slots that are not captured -/

/-- The frame buffers `f` and `g` hold the same bytes in the first `n` slots. -/
def AgreeBelow (n : Nat) (f g : Vector Byte 18) : Prop := ∀ (i : Nat) (_ : i < 18), i < n → g[i] = f[i]

/-- Where every slot is captured the frame buffers are equal. -/
theorem AgreeBelow.eq {f g : Vector Byte 18} (agree : AgreeBelow 18 f g) : g = f :=
  Vector.ext fun i hi => agree i hi hi

/-- Writing the same byte into slot `n` makes one more slot agree. -/
theorem AgreeBelow.set {n : Nat} {f g : Vector Byte 18} (agree : AgreeBelow n f g) (hn : n < 18) (b : Byte) :
    AgreeBelow (n + 1) (f.set n b) (g.set n b) := by
  intro i hi lt
  by_cases eq : n = i
  · simp [eq]
  · simp [Vector.getElem_set_ne _ _ eq, agree i hi (by omega)]

/-- From a state that differs in slots not captured an edge does the same thing, and again leaves a state that differs in
slots not captured: a capture writes the same byte into both, and where all eighteen are captured, which is where FLUSH and
the EMITs are performed, the two states are the same. -/
theorem StepCase.of_other_slots {s s' : State} {g : Vector Byte 18} (h : StepCase s s')
    (agree : AgreeBelow s.capturedSlots s.fb g) :
    ∃ g', StepCase { s with fb := g } { s' with fb := g' } ∧ AgreeBelow s'.capturedSlots s'.fb g' := by
  have none_captured (f f' : Vector Byte 18) : AgreeBelow 0 f f' := fun _ _ lt => absurd lt (Nat.not_lt_zero _)
  by_cases all : s.capturedSlots = 18
  case pos =>
    cases (all ▸ agree).eq
    exact ⟨s'.fb, h, fun _ _ _ => rfl⟩
  case neg =>
    cases h with
    | reset rst => exact ⟨_, .reset rst, fun _ _ _ => rfl⟩
    | sync rst phase offer => exact ⟨g, .sync rst phase offer, none_captured _ _⟩
    | skip b rst phase offer ne =>
      have seeking : (s.rxTake b).advance.capturedSlots = 0 := by simp [State.capturedSlots, phase]
      exact ⟨g, .skip b rst phase offer ne, seeking ▸ none_captured _ _⟩
    | capt slot b rst phase offer cnt =>
      simp only [State.capturedSlots, phase, cnt] at agree
      refine ⟨_, .capt slot b rst phase offer cnt, ?_⟩
      simpa [State.capturedSlots, phase] using agree.set slot.castSucc.isLt b
    | captl b rst phase offer cnt =>
      simp only [State.capturedSlots, phase, cnt] at agree
      exact ⟨_, .captl b rst phase offer cnt, agree.set (by decide) b⟩
    | rxerr rst phase offer err => exact ⟨g, .rxerr rst phase offer err, none_captured _ _⟩
    | wait rst idle => exact ⟨g, .wait rst idle, agree⟩
    | flush _ phase | emit _ _ phase | emitLast _ phase | emitStop _ phase =>
      exact absurd (by simp [State.capturedSlots, phase]) all

/-- Settles O34: the second state has the same position, inputs and streams, so the same case of a step is open to it. -/
theorem slotsNotCapturedNeverMatter : Obligations.SlotsNotCapturedNeverMatter := by
  intro s t s' agree h
  obtain ⟨fb, phase, cnt, eidx, cause, rx, inputs, run, past, draw⟩ := t
  obtain ⟨⟨rfl, rfl, rfl, rfl⟩, rfl, rfl, rfl, rfl, rfl, slots⟩ := agree
  obtain ⟨g', same, agree'⟩ := (stepCase_of_step s s' h).of_other_slots fun i hi lt => slots ⟨i, hi⟩ lt
  exact ⟨_, step_of_stepCase same, ⟨rfl, rfl, rfl, rfl⟩, rfl, rfl, rfl, rfl, rfl, fun i lt => agree' i i.isLt lt⟩

/-! ## Slots change by capture alone -/

/-- A step without RESET captures the byte taken in slot `cnt`, or leaves the frame buffer as it is. -/
theorem StepCase.capture_or_same_fb {s t : State} (h : StepCase s t) (rst : s.edge.rst = false) :
    (∃ b, s.phase = .readingFrame ∧ s.rxOffer = some b ∧ t.fb = (s.setSlot s.cnt b).fb ∧ TakesByte b s t) ∨
    ((s.phase = .readingFrame → s.rxOffer = none) ∧ t.fb = s.fb) := by
  cases h with
  | reset reset => simp [rst] at reset
  | capt slot b _ phase offer cnt | captl b _ phase offer cnt =>
    exact .inl ⟨b, phase, offer, by rw [cnt]; rfl, rfl, rfl⟩
  | rxerr _ _ offer => exact .inr ⟨fun _ => offer, rfl⟩
  | wait _ idle =>
    refine .inr ⟨fun phase => ?_, rfl⟩
    rcases idle with ⟨-, offer, -⟩ | ⟨dispatch, -⟩ | halted
    · exact offer
    · simp [phase] at dispatch
    · simp [phase] at halted
  | sync _ phase | skip _ _ phase | flush _ phase | emit _ _ phase | emitLast _ phase | emitStop _ phase =>
    exact .inr ⟨fun reading => by simp [reading] at phase, rfl⟩

/-- Settles O35: a captured byte is in slot `cnt` and nowhere else, and a step that captures none writes no slot. -/
theorem slotsChangeOnlyByCapture : Obligations.SlotsChangeOnlyByCapture := by
  intro s t rst h
  rcases (stepCase_of_step s t h).capture_or_same_fb rst with ⟨b, phase, offer, fb, takes⟩ | ⟨idle, fb⟩
  case inl =>
    have same : t.slot s.cnt = b := by rw [State.slot, fb]; exact State.slot_setSlot_same s s.cnt b
    have other (i : Slot) (ne : i ≠ s.cnt) : t.slot i = s.slot i := by
      rw [State.slot, fb]; exact State.slot_setSlot_other s s.cnt i b ne
    refine ⟨fun notReading => absurd phase notReading, fun none => ?_, other, ?_, fun i changed => ?_⟩
    · simp [offer] at none
    · rintro c - offer'
      cases offer.symm.trans offer'
      exact same
    · have isCnt : i = s.cnt := of_not_not fun ne => changed (other i ne)
      exact ⟨phase, isCnt, b, offer, isCnt ▸ same, takes⟩
  case inr =>
    have unchanged : SameSlots s t := sameSlots_of_fb s t fb
    refine ⟨fun _ => unchanged, fun _ => unchanged, fun i _ => unchanged i, fun b reading offer => ?_,
      fun i changed => absurd (unchanged i) changed⟩
    simp [idle reading] at offer

/-- Settles O36: without RESET an edge in HALTED only passes, and RESET is the way back. -/
theorem onlyResetLeavesHalted : Obligations.OnlyResetLeavesHalted := fun s halted =>
  ⟨fun rst => ⟨s.advance, step_of_halted rst halted, ⟨rfl, rfl, rfl, rfl⟩, sameSlots_of_fb _ _ rfl, ⟨rfl, rfl⟩, rfl⟩,
    fun rst => ⟨s.restart.advance, step_of_stepCase (.reset rst), rfl, rfl, rfl, rfl⟩⟩

/-! ## Inputs that an edge does not look at -/

/-- The meaning of an operation reads of the inputs `stop_req` alone, and only in EMITB0. -/
theorem exec_of_other_inputs {i : Instr} {s t : State} (ins : List Edge) (h : exec i s = .next t)
    (stop : i = .emitb0 → ({ s with inputs := ins } : State).edge.stopReq = s.edge.stopReq) :
    exec i { s with inputs := ins } = .next { t with inputs := ins } := by
  cases i with
  | emitb0 =>
    cases (exec_emitb0 s).symm.trans h
    simp [exec_emitb0, stop rfl, State.evPut]
  | _ => injection h with h; subst h; rfl

/-- Inputs under which the same operation is selected, with the same `stop_req` where that is EMITB0, and after which the same
edges follow, give the same step. -/
theorem step_of_other_inputs (s : State) (ins : List Edge) (tail : ins.tail = s.inputs.tail)
    (same : decode ({ s with inputs := ins } : State).fetch = decode s.fetch)
    (stop : decode s.fetch = .emitb0 → ({ s with inputs := ins } : State).edge.stopReq = s.edge.stopReq) :
    step { s with inputs := ins } = step s := by
  obtain ⟨t, ht⟩ := exists_exec_next (decode s.fetch) s
  have keeps : t.inputs = s.inputs := by
    injection ht.symm.trans (exec_of_other_inputs s.inputs ht fun _ => rfl) with eq
    rw [eq]
  rw [(step_next_iff s _).2 ⟨t, ht, rfl⟩]
  refine (step_next_iff _ _).2 ⟨_, by rw [same]; exact exec_of_other_inputs ins ht stop, ?_⟩
  simp [State.advance, tail, keeps]

/-- Settles O38: the decoder does not look at `stop_req`, and EMITB0, which does, is the twelfth transfer. -/
theorem stopRequestIsSampledOnlyAtTheTwelfthTransfer : Obligations.StopRequestIsSampledOnlyAtTheTwelfthTransfer := by
  intro s e es b inputs notTwelfth
  obtain rfl : s.edge = e := s.edge_cons e es inputs
  refine step_of_other_inputs s _ (by rw [inputs]; rfl) rfl fun emitb0 => ?_
  obtain ⟨rst, phase, ready, index⟩ := (decode_eq_emitOf_iff s.fetch 11).1 emitb0
  exact absurd ⟨rst, phase, index, ready⟩ notTwelfth

/-- The decoder looks at `rx_err` only where it waits for a byte and none is offered. -/
theorem decode_of_other_rxErr {f : Fetch} (b : Bool)
    (ignored : ¬ (f.rst = false ∧ (f.phase = .seeking ∨ f.phase = .readingFrame) ∧ f.rxOffer = none)) :
    decode { f with rxErr := b } = decode f := by
  obtain ⟨phase, cnt, eidx, rst, offer, err, ready, stop, drop⟩ := f
  cases rst with
  | true => rfl
  | false =>
    cases phase with
    | flush | dispatch | halted => rfl
    | seeking | readingFrame =>
      cases offer with
      | some c => rfl
      | none => simp at ignored

/-- Settles O39: the decoder looks at `rx_err` nowhere else, and no meaning looks at it. -/
theorem readFailureIsSeenOnlyWhileWaiting : Obligations.ReadFailureIsSeenOnlyWhileWaiting := by
  intro s e es b inputs ignored
  obtain rfl : s.edge = e := s.edge_cons e es inputs
  exact step_of_other_inputs s _ (by rw [inputs]; rfl) (decode_of_other_rxErr (f := s.fetch) b ignored) fun _ => rfl

/-! ## What crosses the boundary of the block, and when the phase changes -/

/-- Settles O40: of what an edge can have done, these alone write the phase with another value. -/
theorem onlyTheNamedOperationsChangeThePhase : Obligations.OnlyTheNamedOperationsChangeThePhase := by
  intro s t h changes
  cases stepCase_of_step s t h with
  | reset rst => exact .inl ⟨decode_of_reset rst, rst, rfl⟩
  | sync rst phase offer => exact .inr (.inl ⟨(decode_eq_sync_iff s.fetch).2 ⟨rst, phase, offer⟩, phase, rfl⟩)
  | captl b rst phase offer cnt =>
    exact .inr (.inr (.inl ⟨b, (decode_eq_captl_iff s.fetch b).2 ⟨rst, phase, offer, cnt⟩, phase, cnt, rfl⟩))
  | flush rst phase => exact .inr (.inr (.inr (.inl ⟨_, decode_of_flush rst phase, phase, rfl⟩)))
  | emitLast rst phase ready index stop | emitStop rst phase ready index stop =>
    have emitb0 : decode s.fetch = .emitb0 := (decode_eq_emitOf_iff s.fetch 11).2 ⟨rst, phase, ready, index⟩
    exact .inr (.inr (.inr (.inr (.inl ⟨emitb0, phase, index, by rw [stop]; rfl⟩))))
  | rxerr rst phase offer err =>
    exact .inr (.inr (.inr (.inr (.inr ⟨decode_of_readFailure rst phase offer err, phase, rfl⟩))))
  | skip | capt | emit | wait => exact absurd rfl changes

/-- `rx_ready` (R43). -/
theorem State.rxReady_iff (s : State) : s.rxReady = true ↔ s.phase = .seeking ∨ s.phase = .readingFrame := by
  simp [State.rxReady]

/-- Settles O41: SYNC, SKIP, CAPT and CAPTL take the offered byte, which is the head of the stream; FLUSH drops its draw. -/
theorem bytesLeaveTheStreamInOrder : Obligations.BytesLeaveTheStreamInOrder := by
  intro s t rst h
  cases stepCase_of_step s t h with
  | reset reset => simp [rst] at reset
  | sync _ phase offer | skip _ _ phase offer =>
    exact .inr (.inl ⟨_, s.rxReady_iff.2 (.inl phase), offer, s.rxOffer_head _ offer, rfl⟩)
  | capt _ _ _ phase offer | captl _ _ phase offer =>
    exact .inr (.inl ⟨_, s.rxReady_iff.2 (.inr phase), offer, s.rxOffer_head _ offer, rfl⟩)
  | flush _ phase => exact .inr (.inr ⟨phase, rfl, rfl⟩)
  | rxerr | emit | emitLast | emitStop | wait => exact .inl ⟨rfl, rfl⟩

theorem State.advance_eventStream (s : State) : s.advance.eventStream = s.eventStream := rfl

theorem State.evPut_eventStream (s : State) (w : EvWord) : (s.evPut w).eventStream = s.eventStream ++ [w] :=
  (List.append_assoc _ _ _).symm

/-- An edge transfers the offered word, under the three conditions of R48, or leaves the event stream as it is. -/
theorem StepCase.put_or_same_eventStream {s t : State} (h : StepCase s t) :
    ((s.edge.rst = false ∧ s.evValid = true ∧ s.edge.evReady = true) ∧ t.eventStream = s.eventStream ++ [s.evWord]) ∨
    (¬ (s.edge.rst = false ∧ s.evValid = true ∧ s.edge.evReady = true) ∧ t.eventStream = s.eventStream) := by
  cases h with
  | reset rst => exact .inr ⟨by simp [rst], s.restart.advance_eventStream.trans s.restart_eventStream⟩
  | emit next rst phase ready =>
    rw [State.evWord_of_dispatch phase]
    exact .inl ⟨⟨rst, s.evValid_iff.2 phase, ready⟩, s.evPut_eventStream _⟩
  | emitLast rst phase ready index | emitStop rst phase ready index =>
    rw [State.evWord_of_dispatch phase, index]
    exact .inl ⟨⟨rst, s.evValid_iff.2 phase, ready⟩, s.evPut_eventStream _⟩
  | wait rst idle =>
    refine .inr ⟨?_, rfl⟩
    rintro ⟨-, valid, ready⟩
    simp [s.evValid_iff.1 valid, ready] at idle
  | sync _ phase | skip _ _ phase | capt _ _ _ phase | captl _ _ phase | rxerr _ phase | flush _ phase =>
    refine .inr ⟨?_, rfl⟩
    rintro ⟨-, valid, -⟩
    simp [s.evValid_iff.1 valid] at phase

/-- Settles O42: an edge puts the offered word or nothing, according to the three conditions. -/
theorem eventsAreOnlyEverAppended : Obligations.EventsAreOnlyEverAppended := by
  intro s t h
  rcases (stepCase_of_step s t h).put_or_same_eventStream with ⟨transfers, put⟩ | ⟨idle, same⟩
  · rw [if_pos transfers, put]
  · rw [if_neg idle, same, List.append_nil]

/-! ## The step, the stop request and the registers -/

/-- Settles O30: an edge performs the decoded operation, and every operation answers a next state. -/
theorem everyEdgePerformsAnOperation : Obligations.EveryEdgePerformsAnOperation := exists_step_next

/-- Settles O3: the end of the edge shortens the script and takes the next free values. -/
theorem stepPerformsTheDecodedOperation : Obligations.StepPerformsTheDecodedOperation :=
  fun s t _ d h => (step_next_iff s t.advance).2 ⟨t, d ▸ h, rfl⟩

/-- Settles O13: the twelfth transfer with a stop request is the transfer that ends the frame, and then STOP. -/
theorem stopHaltsWithCauseStopped : Obligations.StopHaltsWithCauseStopped := by
  refine ⟨fun s => ⟨s.haltStopped, exec_stop s, rfl, rfl, rfl, rfl, sameSlots_of_fb _ _ rfl, ⟨rfl, rfl⟩, rfl, rfl, rfl,
    rfl⟩, fun s rst phase ready index stop => ⟨(decode_eq_emitOf_iff s.fetch 11).2 ⟨rst, phase, ready, index⟩, ?_⟩⟩
  refine ⟨{ s.evPut (eventWord s.fb 11) with eidx := 0 }, rfl, rfl, rfl, rfl, rfl, sameSlots_of_fb _ _ rfl, ⟨rfl, rfl⟩,
    ⟨rfl, rfl, rfl⟩, ?_⟩
  exact exec_emit_last_to_halted s stop

/-- Settles O29: the outputs are read off their definitions, and of the three things that can happen to the stream only the
taking of a byte needs `rx_ready`. -/
theorem rxReadyFollowsPhaseAndStatusShowsPhaseAndCause :
    Obligations.RxReadyFollowsPhaseAndStatusShowsPhaseAndCause := by
  refine ⟨State.rxReady_iff, fun s => ?phase, fun s => ?cause, fun s t h notReady rst => ?taken⟩
  case phase => simp +contextual [State.stPhase, phaseCode]
  case cause => simp +contextual [State.stCause, causeCode]
  case taken =>
    rcases bytesLeaveTheStreamInOrder s t rst h with ⟨-, taken⟩ | ⟨_, ready, -⟩ | ⟨-, -, taken⟩
    · exact taken
    · simp [notReady] at ready
    · exact taken

theorem cntCode_injective {a b : Slot} (h : cntCode a = cntCode b) : a = b :=
  Fin.ext (by simpa using congrArg BitVec.toNat h)

theorem eidxCode_injective {a b : EventIndex} (h : eidxCode a = eidxCode b) : a = b :=
  Fin.ext (by simpa using congrArg BitVec.toNat h)

/-- Settles O49: the counters are the numbers of their words, and the words of phases and of causes differ. -/
theorem registersHoldEveryValueInTheirWidths : Obligations.RegistersHoldEveryValueInTheirWidths := by
  refine ⟨fun c => ⟨cntCode_toNat c, ?cnt⟩, fun e => ⟨eidxCode_toNat e, ?eidx⟩, fun p => ?phase, fun c => ?cause,
    fun s t words causeWord => ?same, fun s => ⟨rfl, rfl⟩⟩
  case cnt => rw [cntCode_toNat]; exact Nat.le_of_lt_succ c.isLt
  case eidx => rw [eidxCode_toNat]; exact Nat.le_of_lt_succ e.isLt
  case phase => cases p <;> decide
  case cause => cases c <;> decide
  case same =>
    obtain ⟨phase, cnt, eidx⟩ : phaseCode s.phase = phaseCode t.phase ∧ cntCode s.cnt = cntCode t.cnt ∧
        eidxCode s.eidx = eidxCode t.eidx := by simpa [State.positionWords] using words
    exact ⟨(phaseCode_injective _ _ phase).symm, (cntCode_injective cnt).symm, (eidxCode_injective eidx).symm,
      (causeCode_injective _ _ causeWord).symm⟩

end Sys2Proof.Machine
end

section
/-! PROOFS of the family other: decoding what was encoded, for the conditions of R74 and for event words. -/

namespace Sys2Proof.Machine

/-! ## The conditions of R74 -/

theorem emitOf_wf (e : EventIndex) : (emitOf e).wf = true := by revert e; decide

/-- The condition an encoder gives selects its operation, for every operation an edge can perform on its own. -/
theorem decode_encode {i : Instr} (wf : i.wf = true) : decode (encode i) = i := by
  cases i with
  | skip b => exact decodeSeeking_of_ne (by simpa [Instr.wf, Instr.wfWith] using wf)
  | stop => cases wf
  | capt slot b => exact decodeBody_castSucc slot b
  | _ => rfl

/-- Whatever an edge decodes to is well-formed where the transport's draw is. -/
theorem decode_wf {f : Fetch} (fits : drawFits Config.rxqDepth f.drop = true) : (decode f).wf = true := by
  rcases decode_cases f with ⟨-, d⟩ | ⟨-, -, -, d⟩ | ⟨b, -, -, -, ne, d⟩ | ⟨slot, b, -, -, -, -, d⟩ | ⟨b, -, -, -, -, d⟩ |
    ⟨-, -, -, -, d⟩ | ⟨-, -, d⟩ | ⟨-, -, -, d⟩ | ⟨-, -, d⟩ <;> rw [d]
  · rfl
  · rfl
  · simpa [Instr.wf, Instr.wfWith] using ne
  · rfl
  · rfl
  · rfl
  · exact fits
  · exact emitOf_wf f.eidx
  · rfl

/-! ## Event words and their fields (R82) -/

/-- A word of kind 0 is the KNOB word of its fields. -/
theorem knobWord_of_fields {w : EvWord} (kind : w.getLsbD 18 = false) :
    knobWord (w.extractLsb' 15 3) (w.extractLsb' 0 Config.rawW) = w := by
  have kind : w.extractLsb' 18 1 = 0#1 := by
    ext i hi
    obtain rfl : i = 0 := by omega
    simpa using kind
  rw [knobWord, ← kind, BitVec.extractLsb'_append_extractLsb'_eq_extractLsb' (show 18 = 15 + 3 from rfl),
    BitVec.extractLsb'_append_extractLsb'_eq_extractLsb' (show 15 = 0 + Config.rawW from rfl)]
  exact BitVec.extractLsb'_eq_self

/-- A word of kind 1 with zeros in bits 14:6 is the BAY word of its fields. -/
theorem bayWord_of_fields {w : EvWord} (kind : w.getLsbD 18 = true) (zeros : w.extractLsb' 6 9 = 0#9) :
    bayWord (w.extractLsb' 15 3) (w.extractLsb' 0 Config.rowBits) = w := by
  have kind : w.extractLsb' 18 1 = 1#1 := by
    ext i hi
    obtain rfl : i = 0 := by omega
    simpa using kind
  rw [bayWord, ← kind, ← zeros, BitVec.extractLsb'_append_extractLsb'_eq_extractLsb' (show 18 = 15 + 3 from rfl),
    BitVec.extractLsb'_append_extractLsb'_eq_extractLsb' (show 15 = 6 + 9 from rfl),
    BitVec.extractLsb'_append_extractLsb'_eq_extractLsb' (show 6 = 0 + Config.rowBits from rfl)]
  exact BitVec.extractLsb'_eq_self

/-- A word that decodes is the word of the event it decodes to. -/
theorem toWord_of_decodeEvent {w : EvWord} {e : Event} (h : decodeEvent w = .ok e) : e.toWord = w := by
  have idField : BitVec.ofNat 3 (w.extractLsb' 15 3).toNat = w.extractLsb' 15 3 := by
    rw [BitVec.ofNat_toNat, BitVec.setWidth_eq]
  unfold decodeEvent at h
  split at h
  case isTrue kind =>
    split at h <;> cases h
    rw [Event.toWord, idField, knobWord_of_fields kind]
  case isFalse kind =>
    split at h
    case isTrue =>
      split at h <;> cases h
      next zeros => rw [Event.toWord, idField, bayWord_of_fields (by simpa using kind) zeros]
    case isFalse => cases h

/-- A word decodes to an operation exactly if it is the word of an event that this operation produces. -/
theorem decodeEventWord_eq_ok_iff (w : EvWord) (i : Instr) :
    decodeEventWord w = .ok i ↔ ∃ e : Event, e.toWord = w ∧ e.emitter = i := by
  constructor
  case mp =>
    intro h
    cases d : decodeEvent w with
    | error r => simp [decodeEventWord, d] at h
    | ok e => exact ⟨e, toWord_of_decodeEvent d, by simpa [decodeEventWord, d] using h⟩
  case mpr =>
    rintro ⟨e, rfl, rfl⟩
    simp [decodeEventWord, decodeEvent_toWord]

/-! ## The patterns of R85 -/

/-- A mask of the high bits finds the words with those high bits. -/
theorem and_highMask_eq_iff {n k : Nat} (w : BitVec (n + k)) (high : BitVec n) :
    w &&& (BitVec.allOnes n ++ 0#k) = high ++ 0#k ↔ ∃ low : BitVec k, w = high ++ low := by
  have mask (x : BitVec n) (y : BitVec k) : (x ++ y) &&& (BitVec.allOnes n ++ 0#k) = x ++ 0#k := by
    rw [BitVec.and_append, BitVec.and_allOnes, BitVec.and_zero]
  constructor
  case mp =>
    intro h
    have split : w = w.extractLsb' k n ++ w.extractLsb' 0 k := by
      rw [BitVec.extractLsb'_append_extractLsb'_eq_extractLsb' (Nat.zero_add k).symm, BitVec.extractLsb'_eq_self]
    rw [split, mask, BitVec.append_left_inj] at h
    exact ⟨_, by rw [← h]; exact split⟩
  case mpr => rintro ⟨low, rfl⟩; exact mask high low

/-- The mask of the six KNOB rows of the pattern table. -/
theorem knobPattern_iff (w : EvWord) {e : Fin 12} (h : e.val < 6) :
    w &&& 0x78000#19 = BitVec.ofNat 19 (0x28000 - 0x8000 * e.val) ↔
      ∃ val, w = knobWord (BitVec.ofNat 3 (5 - e.val)) val := by
  have fixed : ∀ e : Fin 12, e.val < 6 →
      BitVec.ofNat 19 (0x28000 - 0x8000 * e.val) = knobWord (BitVec.ofNat 3 (5 - e.val)) 0 := by decide
  rw [fixed e h]
  exact and_highMask_eq_iff (n := 4) (k := 15) w (0#1 ++ BitVec.ofNat 3 (5 - e.val))

/-- The mask of the six BAY rows of the pattern table. -/
theorem bayPattern_iff (w : EvWord) {e : Fin 12} (h : 6 ≤ e.val) :
    w &&& 0x7FFC0#19 = BitVec.ofNat 19 (0x68000 - 0x8000 * (e.val - 6)) ↔
      ∃ conn, w = bayWord (BitVec.ofNat 3 (11 - e.val)) conn := by
  have fixed : ∀ e : Fin 12, 6 ≤ e.val →
      BitVec.ofNat 19 (0x68000 - 0x8000 * (e.val - 6)) = bayWord (BitVec.ofNat 3 (11 - e.val)) 0 := by decide
  rw [fixed e h]
  exact and_highMask_eq_iff (n := 13) (k := 6) w (1#1 ++ BitVec.ofNat 3 (11 - e.val) ++ 0#9)

/-- The events of index `e` are those of knob `5 - e`, or of output `11 - e` (R126). -/
theorem Event.index_knob (id : Fin 6) (val : RawWord) : (Event.knob id val).index.val = 5 - id.val := by
  show 6 - (id.val + 1) = 5 - id.val
  omega

theorem Event.index_bay (id : Fin 6) (conn : BitVec 6) : (Event.bay id conn).index.val = 11 - id.val := by
  show 6 + (6 - (id.val + 1)) = 11 - id.val
  omega

/-! ## The obligations -/

/-- Settles O21: each condition an encoder gives is a row of its operation, and an event word is determined by its fields. -/
theorem decodeAndEncodeAgree : Obligations.DecodeAndEncodeAgree :=
  ⟨fun _ => decode_encode, fun _ => decode_wf, rfl, decodeEvent_toWord, fun _ _ => toWord_of_decodeEvent⟩

/-- Settles O22: a pattern is the kind and the id of an index, and for a BAY word the nine zeros; the words that have one are
the words of events. -/
theorem eventPatternsSelectTheirEmit : Obligations.EventPatternsSelectTheirEmit := by
  refine ⟨fun fb e h => ?knob, fun fb e h => ?bay, fun w e h pattern => ?ofKnob, fun w e h pattern => ?ofBay,
    fun w i d => ?only⟩
  case knob => exact (knobPattern_iff _ h).2 ⟨_, eventWord_of_lt fb e h⟩
  case bay => exact (bayPattern_iff _ h).2 ⟨_, eventWord_of_ge fb e h⟩
  case ofKnob =>
    obtain ⟨val, rfl⟩ := (knobPattern_iff w h).1 pattern
    have below : 5 - e.val < 6 := by omega
    refine (decodeEventWord_eq_ok_iff _ _).2 ⟨.knob ⟨5 - e.val, below⟩ val, rfl, congrArg emitOf (Fin.ext ?_)⟩
    exact (Event.index_knob _ val).trans (Nat.sub_sub_self (Nat.le_of_lt_succ h))
  case ofBay =>
    obtain ⟨conn, rfl⟩ := (bayPattern_iff w h).1 pattern
    have below : 11 - e.val < 6 := by omega
    refine (decodeEventWord_eq_ok_iff _ _).2 ⟨.bay ⟨11 - e.val, below⟩ conn, rfl, congrArg emitOf (Fin.ext ?_)⟩
    exact (Event.index_bay _ conn).trans (Nat.sub_sub_self (Nat.le_of_lt_succ e.isLt))
  case only =>
    obtain ⟨ev, rfl, rfl⟩ := (decodeEventWord_eq_ok_iff w i).1 d
    refine ⟨ev.index, rfl, ?_⟩
    cases ev with
    | knob id val =>
      have lt := id.isLt
      have index := Event.index_knob id val
      have below : (Event.knob id val).index.val < 6 := by omega
      refine .inl ⟨below, (knobPattern_iff _ below).2 ⟨val, ?_⟩⟩
      rw [index, Nat.sub_sub_self (Nat.le_of_lt_succ lt)]
      rfl
    | bay id conn =>
      have lt : id.val < 6 := id.isLt
      have index := Event.index_bay id conn
      have above : 6 ≤ (Event.bay id conn).index.val := by omega
      refine .inr ⟨above, (bayPattern_iff _ above).2 ⟨conn, ?_⟩⟩
      rw [index, Nat.sub_sub_self (by omega)]
      rfl

/-- Settles O4: each word is written out in bits and decoded. -/
theorem wordsOfTheSpecDecode : Obligations.WordsOfTheSpecDecode := by
  unfold Obligations.WordsOfTheSpecDecode
  decide

end Sys2Proof.Machine
end

section
/-! PROOFS of the family other: the range-mapper of any configuration (R101 to R106). -/

namespace Sys2Proof.Machine

/-! ## The affine map in rationals -/

/-- `G`, the gain of the map (R106). -/
def scalerGain (c : ScalerConfig) : ℚ := ((c.dstEnd - c.dstBeg : Int) : ℚ) / ((c.srcEnd - c.srcBeg : Int) : ℚ)

/-- `B`, the offset of the map (R106). -/
def scalerOffset (c : ScalerConfig) : ℚ := (c.dstBeg : ℚ) / c.den - (c.srcBeg : ℚ) / c.den * scalerGain c

/-- The floor of a fraction of integers is the division that rounds down, whatever the sign of the denominator. -/
theorem floor_intCast_div_intCast (a b : Int) : ⌊(a : ℚ) / (b : ℚ)⌋ = a.fdiv b := by
  have pos (a : Int) (n : Nat) : ⌊(a : ℚ) / (n : ℚ)⌋ = a.fdiv n := by
    rw [Rat.floor_intCast_div_natCast, Int.fdiv_eq_ediv_of_nonneg a n.cast_nonneg]
  obtain ⟨n, rfl | rfl⟩ := Int.eq_nat_or_neg b
  case inl => rw [Int.cast_natCast, pos]
  case inr =>
    have flip : (a : ℚ) / ((-n : Int) : ℚ) = ((-a : Int) : ℚ) / (n : ℚ) := by push_cast; rw [div_neg, neg_div]
    rw [flip, pos, ← Int.neg_fdiv_neg, neg_neg]

section
variable {c : ScalerConfig} (den : c.den ≠ 0) (width : c.srcEnd ≠ c.srcBeg)
include den width

/-- `Q(v)` is the gain times `v`, plus the offset. -/
theorem exactValue_eq_affine (v : Nat) : exactValue c v = scalerGain c * v + scalerOffset c := by
  have den' : (c.den : ℚ) ≠ 0 := by exact_mod_cast den
  have width' : (c.srcEnd : ℚ) - c.srcBeg ≠ 0 := by rw [sub_ne_zero]; exact_mod_cast width
  have widthOverDen : (c.srcEnd : ℚ) / c.den - c.srcBeg / c.den ≠ 0 := by rw [← sub_div]; exact div_ne_zero width' den'
  simp only [exactValue, scalerGain, scalerOffset]
  push_cast
  field_simp
  ring

/-- The integers of the model are the numerator and the denominator of `Q(v) * 2^VAL_F`. -/
theorem scaleInt_eq_floor (v : Nat) : scaleInt c v = ⌊exactValue c v * 2 ^ c.valF⌋ := by
  have den' : (c.den : ℚ) ≠ 0 := by exact_mod_cast den
  have width' : (c.srcEnd : ℚ) - c.srcBeg ≠ 0 := by rw [sub_ne_zero]; exact_mod_cast width
  rw [scaleInt, ← floor_intCast_div_intCast, exactValue_eq_affine den width]
  congr 1
  simp only [scalerGain, scalerOffset]
  push_cast
  field_simp
  ring

/-- Between two inputs the output is between their outputs, in one order or the other: the map is affine and rounding keeps
order. -/
theorem scaleInt_between {u v w : Nat} (uv : u ≤ v) (vw : v ≤ w) :
    (scaleInt c u ≤ scaleInt c v ∧ scaleInt c v ≤ scaleInt c w) ∨
    (scaleInt c w ≤ scaleInt c v ∧ scaleInt c v ≤ scaleInt c u) := by
  have up (rising : 0 ≤ scalerGain c) {i j : Nat} (le : i ≤ j) : scaleInt c i ≤ scaleInt c j := by
    rw [scaleInt_eq_floor den width, scaleInt_eq_floor den width, exactValue_eq_affine den width,
      exactValue_eq_affine den width]
    gcongr
  have down (falling : scalerGain c ≤ 0) {i j : Nat} (le : i ≤ j) : scaleInt c j ≤ scaleInt c i := by
    rw [scaleInt_eq_floor den width, scaleInt_eq_floor den width, exactValue_eq_affine den width,
      exactValue_eq_affine den width]
    have : scalerGain c * j ≤ scalerGain c * i := mul_le_mul_of_nonpos_left (by exact_mod_cast le) falling
    gcongr
  rcases le_total 0 (scalerGain c) with rising | falling
  · exact .inl ⟨up rising uv, up rising vw⟩
  · exact .inr ⟨down falling vw, down falling uv⟩

end

/-! ## The check of a configuration -/

/-- A field holds whatever lies between two numbers that it holds. -/
theorem fitsField_between {c : ScalerConfig} {x y z : Int} (hx : fitsField c x = true) (hz : fitsField c z = true)
    (xy : x ≤ y) (yz : y ≤ z) : fitsField c y = true := by
  cases signed : c.signed with
  | true =>
    simp only [fitsField, signed, ↓reduceIte, decide_eq_true_eq] at hx hz ⊢
    omega
  | false =>
    simp only [fitsField, signed, Bool.false_eq_true, ↓reduceIte, decide_eq_true_eq] at hx hz ⊢
    omega

/-- A configuration is built exactly if the checks pass. -/
theorem exists_buildScaler_ok_iff (c : ScalerConfig) : (∃ m, buildScaler c = .ok m) ↔ checkScaler c = none := by
  unfold buildScaler
  split
  next admitted => exact ⟨fun _ => admitted, fun _ => ⟨_, rfl⟩⟩
  next refused => simp [refused]

theorem buildScaler_of_error {c : ScalerConfig} {e : ScalerDomainError} (h : checkScaler c = some e) :
    buildScaler c = .error e := by
  unfold buildScaler
  split
  next admitted => simp [admitted] at h
  next refused => rw [Option.some.inj (refused.symm.trans h)]

/-- The checks, where the data name intervals: non-zero width, and the two ends fit. -/
theorem checkScaler_eq_none_iff {c : ScalerConfig} (den : c.den ≠ 0) : checkScaler c = none ↔
    c.srcEnd ≠ c.srcBeg ∧ fitsField c (scaleInt c 0) = true ∧ fitsField c (scaleInt c 32767) = true := by
  by_cases width : c.srcEnd = c.srcBeg <;> simp [checkScaler, den, width, maxRaw, Config.rawW]

/-! ## The obligations -/

/-- Settles O26: the model divides the numerator of `Q(v) * 2^VAL_F` by its denominator, rounding down. -/
theorem scalerRoundsTheExactValueDown : Obligations.ScalerRoundsTheExactValueDown :=
  fun _ v den width => scaleInt_eq_floor den width v

/-- Settles O27: every output lies between those of 0 and 32767, and the numbers a field holds are an interval. -/
theorem buildAdmitsExactlyTheFittingConfigurations : Obligations.BuildAdmitsExactlyTheFittingConfigurations := by
  refine fun c den => ⟨?admitted, fun zeroWidth => ?refused⟩
  case admitted =>
    rw [exists_buildScaler_ok_iff, checkScaler_eq_none_iff den]
    refine and_congr_right fun width => ⟨?_, fun all => ⟨all 0 (by decide), all 32767 (by decide)⟩⟩
    rintro ⟨low, high⟩ v le
    rcases scaleInt_between den width v.zero_le le with ⟨above, below⟩ | ⟨above, below⟩
    · exact fitsField_between low high above below
    · exact fitsField_between high low above below
  case refused => exact buildScaler_of_error (by simp [checkScaler, den, zeroWidth])

/-- Settles O28: over the denominator `2^S` the exact value times `2^VAL_F` is `M * v + A`, and the shift rounds down. -/
theorem multiplyAddFormComputesTheSame : Obligations.MultiplyAddFormComputesTheSame := by
  intro c m a sh den width gain offset v
  have gain : scalerGain c * 2 ^ c.valF = m / 2 ^ sh := gain
  have offset : scalerOffset c * 2 ^ (c.valF + sh) = a := offset
  have dyadic : exactValue c v * 2 ^ c.valF = ((m * v + a : Int) : ℚ) / ((2 ^ sh : Nat) : ℚ) := by
    rw [exactValue_eq_affine den width, add_mul, mul_right_comm, gain]
    push_cast
    rw [← offset, pow_add]
    field_simp
  rw [scaleInt_eq_floor den width, dyadic, Rat.floor_intCast_div_natCast, mulAdd, Int.shiftRight_eq_div_pow]

end Sys2Proof.Machine
end

section
/-! PROOFS of the family other: the frames of a consumed sequence (R53, R160), and the event stream as a function of it. -/

namespace Sys2Proof.Machine

/-! ## One byte of a scan -/

/-- Outside a body the marker opens one. -/
theorem Scan.byte_of_marker {σ : Scan} (seeking : σ.current = none) :
    σ.byte Config.marker = { σ with current := some [] } := by
  simp [Scan.byte, seeking]

/-- Outside a body any other byte is passed over. -/
theorem Scan.byte_of_stray {σ : Scan} {b : Byte} (seeking : σ.current = none) (ne : b ≠ Config.marker) : σ.byte b = σ := by
  simp [Scan.byte, seeking, ne]

/-- In a body of fewer than 17 bytes any byte joins it. -/
theorem Scan.byte_of_body {σ : Scan} {body : List Byte} (b : Byte) (reading : σ.current = some body)
    (short : body.length < 17) : σ.byte b = { σ with current := some (body ++ [b]) } := by
  simp [Scan.byte, reading, short]

/-- The 18th byte closes the body. -/
theorem Scan.byte_of_last {σ : Scan} {body : List Byte} (b : Byte) (reading : σ.current = some body)
    (full : body.length = 17) : σ.byte b = { frames := σ.frames ++ [body ++ [b]], current := none } := by
  simp [Scan.byte, reading, full]

/-- One more byte of the consumed sequence is one more byte of its scan. -/
theorem scan_concat (c : List Byte) (b : Byte) : scan (c ++ [b]) = (scan c).byte b :=
  List.foldl_concat ..

/-! ## A stretch of a scan -/

/-- Bytes that are not the marker leave a scan outside a body as it is. -/
theorem foldl_byte_stray {σ : Scan} {stray : List Byte} (seeking : σ.current = none)
    (ne : ∀ b ∈ stray, b ≠ Config.marker) : stray.foldl Scan.byte σ = σ := by
  induction stray with
  | nil => rfl
  | cons b stray ih =>
    rw [List.foldl_cons, Scan.byte_of_stray seeking (ne b List.mem_cons_self)]
    exact ih fun b' mem => ne b' (List.mem_cons_of_mem b mem)

/-- Bytes too few to close the body join it. -/
theorem foldl_byte_body {σ : Scan} {body bytes : List Byte} (reading : σ.current = some body)
    (short : body.length + bytes.length ≤ 17) :
    bytes.foldl Scan.byte σ = { σ with current := some (body ++ bytes) } := by
  induction bytes generalizing σ body with
  | nil => simp [← reading]
  | cons b bytes ih =>
    rw [List.length_cons] at short
    rw [List.foldl_cons, Scan.byte_of_body b reading (by omega), ih rfl (by simp; omega), List.append_assoc]
    rfl

/-- A marker and 18 bytes are one frame. -/
theorem foldl_byte_frame {σ : Scan} {body : List Byte} (seeking : σ.current = none) (full : body.length = 18) :
    (frameBytes body).foldl Scan.byte σ = { frames := σ.frames ++ [body], current := none } := by
  obtain rfl | ⟨front, b, rfl⟩ := body.eq_nil_or_concat
  · cases full
  have length : front.length = 17 := by simpa using full
  rw [frameBytes, List.foldl_cons, Scan.byte_of_marker seeking, List.concat_eq_append, List.foldl_concat,
    foldl_byte_body (body := []) rfl (by simp [length]), Scan.byte_of_last b rfl length]

/-- What one byte does to the body in hand does not depend on the frames already found, which stay before any it closes. -/
theorem byte_keeps_found (b : Byte) (current : Option (List Byte)) :
    ∃ (more : List (List Byte)) (last : Option (List Byte)),
      ∀ found, Scan.byte { frames := found, current := current } b = { frames := found ++ more, current := last } := by
  cases current with
  | none =>
    by_cases marker : b = Config.marker
    · exact ⟨[], some [], fun found => by simp [Scan.byte, marker]⟩
    · exact ⟨[], none, fun found => by simp [Scan.byte, marker]⟩
  | some body =>
    by_cases short : body.length < 17
    · exact ⟨[], some (body ++ [b]), fun found => by simp [Scan.byte, short]⟩
    · exact ⟨[body ++ [b]], none, fun found => by simp [Scan.byte, short]⟩

/-- So it is for any number of bytes. -/
theorem foldl_byte_keeps_found (c : List Byte) (current : Option (List Byte)) :
    ∃ (more : List (List Byte)) (last : Option (List Byte)),
      ∀ found, c.foldl Scan.byte { frames := found, current := current } = { frames := found ++ more, current := last } := by
  induction c generalizing current with
  | nil => exact ⟨[], current, fun found => by simp⟩
  | cons b c ih =>
    obtain ⟨first, next, hb⟩ := byte_keeps_found b current
    obtain ⟨more, last, hc⟩ := ih next
    exact ⟨first ++ more, last, fun found => by rw [List.foldl_cons, hb, hc, List.append_assoc]⟩

/-! ## The frames of a scan -/

theorem scan_frames_of_stray_append {stray : List Byte} (c : List Byte) (ne : ∀ b ∈ stray, b ≠ Config.marker) :
    (scan (stray ++ c)).frames = (scan c).frames := by
  rw [scan, List.foldl_append, foldl_byte_stray rfl ne]
  rfl

theorem scan_frames_of_frame_append {body : List Byte} (c : List Byte) (full : body.length = 18) :
    (scan (frameBytes body ++ c)).frames = body :: (scan c).frames := by
  obtain ⟨more, last, h⟩ := foldl_byte_keeps_found c none
  rw [scan, scan, List.foldl_append, foldl_byte_frame rfl full, h, h]
  rfl

theorem scan_frames_of_short_frame {body : List Byte} (short : body.length < 18) : (scan (frameBytes body)).frames = [] := by
  rw [scan, frameBytes, List.foldl_cons, Scan.byte_of_marker rfl, foldl_byte_body rfl (by simp; omega)]

/-- The sentence of R53, with fuel for every byte, finds the frames of the scan: it drops the stray bytes, and then has
a frame to take off, or too few bytes for one, or none at all. -/
theorem framesWithin_eq_scan_frames {fuel : Nat} {c : List Byte} (enough : c.length ≤ fuel) :
    framesWithin fuel c = (scan c).frames := by
  induction fuel generalizing c with
  | zero => rw [List.length_eq_zero_iff.1 (Nat.le_zero.1 enough)]; rfl
  | succ fuel ih =>
    have stray : ∀ b ∈ c.takeWhile (· != Config.marker), b ≠ Config.marker := fun b mem => by
      simpa using List.mem_takeWhile_imp mem
    have split : c.takeWhile (· != Config.marker) ++ c.dropWhile (· != Config.marker) = c := List.takeWhile_append_dropWhile
    rw [← split, scan_frames_of_stray_append _ stray, split, framesWithin]
    cases left : c.dropWhile (· != Config.marker) with
    | nil => rfl
    | cons b rest =>
      obtain rfl : b = Config.marker := by
        have := List.head_dropWhile_not (· != Config.marker) (l := c) (by simp [left])
        simpa [left] using this
      have shorter : rest.length < c.length := by
        have : (Config.marker :: rest).length ≤ c.length := left ▸ (List.dropWhile_suffix _).length_le
        exact this
      by_cases short : rest.length < 18
      · exact (if_pos short).trans (scan_frames_of_short_frame short).symm
      · have full : (rest.take 18).length = 18 := by rw [List.length_take]; omega
        have frame : Config.marker :: rest = frameBytes (rest.take 18) ++ rest.drop 18 := by simp [frameBytes]
        have frames : (scan (Config.marker :: rest)).frames = rest.take 18 :: framesWithin fuel (rest.drop 18) := by
          rw [frame, scan_frames_of_frame_append _ full, ih (by rw [List.length_drop]; omega)]
        exact (if_neg short).trans frames.symm

/-- Settles O33: a sequence has fuel enough for its own bytes. -/
theorem scanFindsTheFramesOfTheSentence : Obligations.ScanFindsTheFramesOfTheSentence :=
  fun _ => (framesWithin_eq_scan_frames (Nat.le_refl _)).symm

theorem framesOf_eq_scan_frames (c : List Byte) : framesOf c = (scan c).frames :=
  framesWithin_eq_scan_frames (Nat.le_refl _)

/-! ## The stream invariant by phase -/

/-- The events of the complete bodies of a scan, in order. -/
def Scan.events (σ : Scan) : List EvWord := σ.frames.flatMap fun body => frameEvents (bodyOf body)

/-- A body closed adds its twelve events. -/
theorem Scan.events_concat (frames : List (List Byte)) (body : List Byte) (current current' : Option (List Byte)) :
    Scan.events { frames := frames ++ [body], current := current } =
      Scan.events { frames := frames, current := current' } ++ frameEvents (bodyOf body) := by
  simp [Scan.events]

theorem streamInv_of_seeking {s : State} (phase : s.phase = .seeking) :
    StreamInv s ↔ (scan s.run.taken).current = none ∧ s.run.events = (scan s.run.taken).events := by
  simp [StreamInv, State.synchronized, State.pending, phase, Scan.events]

theorem streamInv_of_readingFrame {s : State} (phase : s.phase = .readingFrame) :
    StreamInv s ↔ (scan s.run.taken).current = some (s.fb.toList.take s.cnt.val) ∧
      s.run.events = (scan s.run.taken).events := by
  simp [StreamInv, State.synchronized, State.pending, phase, Scan.events]

theorem streamInv_of_flush {s : State} (phase : s.phase = .flush) :
    StreamInv s ↔ ((scan s.run.taken).current = none ∧ (scan s.run.taken).frames.getLast? = some s.fb.toList) ∧
      s.run.events ++ frameEvents s.fb = (scan s.run.taken).events := by
  simp [StreamInv, State.synchronized, State.pending, phase, Scan.events]

theorem streamInv_of_dispatch {s : State} (phase : s.phase = .dispatch) :
    StreamInv s ↔ ((scan s.run.taken).current = none ∧ (scan s.run.taken).frames.getLast? = some s.fb.toList) ∧
      s.run.events ++ (eventOrder.drop s.eidx.val).map (eventWord s.fb) = (scan s.run.taken).events := by
  simp [StreamInv, State.synchronized, State.pending, phase, Scan.events]

theorem streamInv_of_halted {s : State} (phase : s.phase = .halted) :
    StreamInv s ↔ s.run.events = (scan s.run.taken).events := by
  simp [StreamInv, State.synchronized, State.pending, phase, Scan.events]

/-! ## Bodies and frame buffers -/

/-- The contents of a frame buffer, as a body, are that frame buffer. -/
theorem bodyOf_toList (fb : Vector Byte 18) : bodyOf fb.toList = fb :=
  Vector.ext fun i hi => by simp [bodyOf]

theorem length_take_toList (fb : Vector Byte 18) {n : Nat} (hn : n ≤ 18) : (fb.toList.take n).length = n := by
  rw [List.length_take, Vector.length_toList, Nat.min_eq_left hn]

/-- Writing slot `n` extends the bytes below it by the byte written. -/
theorem take_toList_set (fb : Vector Byte 18) {n : Nat} (hn : n < 18) (b : Byte) :
    (fb.set n b).toList.take (n + 1) = fb.toList.take n ++ [b] := by
  have length : n < (fb.toList.set n b).length := by simpa using hn
  rw [Vector.toList_set, List.take_succ_eq_append_getElem length, List.getElem_set_self, List.take_set_of_le (Nat.le_refl n)]

/-- Writing the last slot completes the body. -/
theorem toList_set_last (fb : Vector Byte 18) (b : Byte) : (fb.set 17 b).toList = fb.toList.take 17 ++ [b] := by
  rw [← take_toList_set fb (by decide) b, List.take_of_length_le (by simp)]

/-- The events left to transfer at an index: that of the index, then those left at the next. -/
theorem eventOrder_drop (e : EventIndex) : eventOrder.drop e.val = e :: eventOrder.drop (e.val + 1) := by
  revert e; decide

/-! ## Every step keeps the stream invariant -/

/-- An EMIT moves the event of its index from those pending to those transferred. -/
theorem events_append_pending (events : List EvWord) (fb : Vector Byte 18) (e : EventIndex) :
    events ++ (eventOrder.drop e.val).map (eventWord fb) =
      (events ++ [eventWord fb e]) ++ (eventOrder.drop (e.val + 1)).map (eventWord fb) := by
  rw [eventOrder_drop e]
  simp

/-- Settles O32: by the case of the step. A byte taken is one more byte of the scan, CAPTL closes a body whose events are
then all pending, and each EMIT turns the first pending event into a transferred one. -/
theorem streamInvariantIsKept : Obligations.StreamInvariantIsKept := by
  intro s t inv h
  cases stepCase_of_step s t h with
  | reset => exact ⟨rfl, rfl⟩
  | sync _ phase =>
    obtain ⟨current, events⟩ := (streamInv_of_seeking phase).1 inv
    have scanned := (scan_concat s.run.taken Config.marker).trans (Scan.byte_of_marker current)
    refine (streamInv_of_readingFrame rfl).2 ⟨congrArg Scan.current scanned, ?_⟩
    exact events.trans (congrArg Scan.events scanned).symm
  | skip b _ phase _ ne =>
    obtain ⟨current, events⟩ := (streamInv_of_seeking phase).1 inv
    have scanned := (scan_concat s.run.taken b).trans (Scan.byte_of_stray current ne)
    refine (streamInv_of_seeking (s := (s.rxTake b).advance) phase).2 ⟨(congrArg Scan.current scanned).trans current, ?_⟩
    exact events.trans (congrArg Scan.events scanned).symm
  | capt slot b _ phase _ cnt =>
    obtain ⟨current, events⟩ := (streamInv_of_readingFrame phase).1 inv
    rw [cnt, Fin.val_castSucc] at current
    have short : slot.val < 17 := slot.isLt
    have length := length_take_toList s.fb (n := slot.val) (by omega)
    have scanned := (scan_concat s.run.taken b).trans (Scan.byte_of_body b current (length.trans_lt short))
    rw [← take_toList_set s.fb (by omega) b] at scanned
    refine (streamInv_of_readingFrame (s := State.advance { (s.rxTake b).setSlot slot.castSucc b with cnt := slot.succ })
      phase).2 ⟨congrArg Scan.current scanned, ?_⟩
    exact events.trans (congrArg Scan.events scanned).symm
  | captl b _ phase _ cnt =>
    obtain ⟨current, events⟩ := (streamInv_of_readingFrame phase).1 inv
    have current : (scan s.run.taken).current = some (s.fb.toList.take 17) := by rw [current, cnt]; rfl
    have scanned := (scan_concat s.run.taken b).trans (Scan.byte_of_last b current (length_take_toList s.fb (by decide)))
    rw [← toList_set_last s.fb b] at scanned
    refine (streamInv_of_flush rfl).2 ⟨⟨congrArg Scan.current scanned, ?_⟩, ?_⟩
    · exact (congrArg (·.frames.getLast?) scanned).trans List.getLast?_concat
    · have closed := (congrArg Scan.events scanned).trans (Scan.events_concat _ _ _ (scan s.run.taken).current)
      rw [bodyOf_toList] at closed
      exact (congrArg (· ++ _) events).trans closed.symm
  | rxerr _ phase =>
    refine (streamInv_of_halted rfl).2 ?_
    rcases phase with phase | phase
    · exact ((streamInv_of_seeking phase).1 inv).2
    · exact ((streamInv_of_readingFrame phase).1 inv).2
  | flush _ phase => exact (streamInv_of_dispatch rfl).2 ((streamInv_of_flush phase).1 inv)
  | emit next _ phase _ index =>
    obtain ⟨current, events⟩ := (streamInv_of_dispatch phase).1 inv
    rw [events_append_pending, ← index] at events
    exact (streamInv_of_dispatch (s := State.advance { s.evPut (eventWord s.fb s.eidx) with eidx := next }) phase).2
      ⟨current, events⟩
  | emitLast _ phase _ index =>
    obtain ⟨⟨current, -⟩, events⟩ := (streamInv_of_dispatch phase).1 inv
    rw [events_append_pending, index] at events
    exact (streamInv_of_seeking rfl).2 ⟨current, by simpa [eventOrder] using events⟩
  | emitStop _ phase _ index =>
    obtain ⟨-, events⟩ := (streamInv_of_dispatch phase).1 inv
    rw [events_append_pending, index] at events
    exact (streamInv_of_halted rfl).2 (by simpa [eventOrder] using events)
  | wait => exact inv

/-- Settles O2: nothing has been taken, transferred or begun. -/
theorem resetStateMeetsTheInvariants : Obligations.ResetStateMeetsTheInvariants :=
  ⟨⟨by decide, fun _ _ => rfl, fun _ => rfl⟩, rfl, rfl⟩

end Sys2Proof.Machine
end

section
/-! PROOFS of the family other: the frames a device sends, as the block finds them (R91, R232, R235). -/

namespace Sys2Proof.Machine

/-! ## The sentence of R53 on a stream in parts -/

theorem framesOf_of_stray_append {stray : List Byte} (c : List Byte) (ne : ∀ b ∈ stray, b ≠ Config.marker) :
    framesOf (stray ++ c) = framesOf c := by
  rw [framesOf_eq_scan_frames, framesOf_eq_scan_frames, scan_frames_of_stray_append c ne]

theorem framesOf_of_frame_append {body : List Byte} (c : List Byte) (full : body.length = 18) :
    framesOf (frameBytes body ++ c) = body :: framesOf c := by
  rw [framesOf_eq_scan_frames, framesOf_eq_scan_frames, scan_frames_of_frame_append c full]

theorem framesOf_of_stray {stray : List Byte} (ne : ∀ b ∈ stray, b ≠ Config.marker) : framesOf stray = [] := by
  rw [← List.append_nil stray, framesOf_of_stray_append [] ne]
  rfl

/-! ## SNAP frames read back (R91) -/

theorem bodyOf_getElem (body : List Byte) {i : Nat} (hi : i < 18) : (bodyOf body)[i] = body.getD i 0 := by
  simp [bodyOf]

/-- The two bytes of a 14-bit knob word give the word back (R76, R91). -/
theorem rawWord_pairOf (k : BitVec 14) :
    rawWord ((k.extractLsb' 0 7).setWidth Config.byteW) ((k.extractLsb' 7 7).setWidth Config.byteW) = k.setWidth 15 := by
  refine BitVec.eq_of_getLsbD_eq fun i hi => ?_
  have hi : i < 15 := hi
  rw [rawWord_getLsbD _ _ hi]
  by_cases low : i < 7
  case pos => simp [low, hi, (by omega : i < 8)]
  case neg =>
    have position : 7 + (i - 7) = i := by omega
    by_cases top : i = 14
    · simp [top]
    · simp [low, hi, position, Config.byteW, (by omega : i - 7 < 7), (by omega : i - 7 < 8)]

/-- The row byte of six flags gives them back (R84, R91). -/
theorem rowConn_setWidth (r : BitVec 6) : rowConn (r.setWidth Config.byteW) = r := by
  refine BitVec.eq_of_getLsbD_eq fun i hi => ?_
  have hi : i < 6 := hi
  simp [rowConn, Config.rowBits, Config.byteW, hi, (by omega : i < 8)]

/-- The events of a SNAP body, word by word. -/
theorem frameEvents_snapBody (k : Fin 6 → BitVec 14) (r : Fin 6 → BitVec 6) : frameEvents (bodyOf (snapBody k r)) =
    ([5, 4, 3, 2, 1, 0].map fun n : Fin 6 => (Event.knob n ((k n).setWidth 15)).toWord) ++
      ([5, 4, 3, 2, 1, 0].map fun n : Fin 6 => (Event.bay n (r n)).toWord) := by
  calc frameEvents (bodyOf (snapBody k r))
      = ([5, 4, 3, 2, 1, 0].map fun n : Fin 6 => (Event.knob n (rawWord
            (((k n).extractLsb' 0 7).setWidth Config.byteW) (((k n).extractLsb' 7 7).setWidth Config.byteW))).toWord) ++
          ([5, 4, 3, 2, 1, 0].map fun n : Fin 6 => (Event.bay n (rowConn ((r n).setWidth Config.byteW))).toWord) := by
        simp only [frameEvents_eq_map_toWord, bodyOf_getElem]
        rfl
    _ = _ := by simp only [rawWord_pairOf, rowConn_setWidth]

/-- Settles O47: SNAP is one marker and 18 bytes, each knob's two bytes give its word back, and each row byte its flags. -/
theorem snapshotFramesReadBack : Obligations.SnapshotFramesReadBack := by
  refine fun k r => ⟨?_, frameEvents_snapBody k r⟩
  have full : (snapBody k r).length = 18 := rfl
  exact (congrArg framesOf (List.append_nil _).symm).trans (framesOf_of_frame_append [] full)

/-! ## Streams of 7-bit-clean devices (R73, R235) -/

/-- A stretch of a clean device's stream: no marker in the gap, and a clean body. -/
def Segment.clean (g : Segment) : Prop := (∀ b ∈ g.gap, b ≠ Config.marker) ∧ cleanBody g.body = true

/-- A clean body holds no marker, whose bit 7 is set. -/
theorem ne_marker_of_cleanBody {body : List Byte} (clean : cleanBody body = true) : ∀ b ∈ body, b ≠ Config.marker := by
  rintro b mem rfl
  have all : body.all sevenBitClean = true := (Bool.and_eq_true_iff.1 clean).2
  exact absurd (List.all_eq_true.1 all _ mem) (by decide)

theorem length_of_cleanBody {body : List Byte} (clean : cleanBody body = true) : body.length = 18 :=
  of_decide_eq_true (Bool.and_eq_true_iff.1 clean).1

/-- From the first byte on, the frames found are the frames sent. -/
theorem framesOf_of_clean {segments : List Segment} {after : List Byte} (clean : ∀ g ∈ segments, g.clean)
    (ne : ∀ b ∈ after, b ≠ Config.marker) :
    framesOf (segments.flatMap Segment.bytes ++ after) = segments.map Segment.body := by
  induction segments with
  | nil => exact framesOf_of_stray ne
  | cons g segments ih =>
    obtain ⟨⟨gap, body⟩, rest⟩ := List.forall_mem_cons.1 clean
    rw [List.flatMap_cons, Segment.bytes, List.append_assoc, List.append_assoc, framesOf_of_stray_append _ gap,
      framesOf_of_frame_append _ (length_of_cleanBody body), ih rest, List.map_cons]

/-- From any byte on: a start before the frame's marker finds this frame and all that follow, a start in its body passes over
the rest of the body, and a later start is one in the rest of the stream. -/
theorem framesOf_drop_suffix {segments : List Segment} {after : List Byte} (clean : ∀ g ∈ segments, g.clean)
    (ne : ∀ b ∈ after, b ≠ Config.marker) (n : Nat) :
    framesOf ((segments.flatMap Segment.bytes ++ after).drop n) <:+ segments.map Segment.body := by
  induction segments generalizing n with
  | nil =>
    have stray : ∀ b ∈ after.drop n, b ≠ Config.marker := fun b mem => ne b (List.mem_of_mem_drop mem)
    rw [List.flatMap_nil, List.nil_append, framesOf_of_stray stray]
    exact List.nil_suffix
  | cons g segments ih =>
    obtain ⟨⟨gap, body⟩, rest⟩ := List.forall_mem_cons.1 clean
    rw [List.flatMap_cons, Segment.bytes, List.append_assoc, List.append_assoc, List.drop_append,
      framesOf_of_stray_append _ fun b mem => gap b (List.mem_of_mem_drop mem), List.map_cons]
    cases n - g.gap.length with
    | zero =>
      rw [List.drop_zero, framesOf_of_frame_append _ (length_of_cleanBody body), framesOf_of_clean rest ne]
    | succ m =>
      rw [frameBytes, List.cons_append, List.drop_succ_cons, List.drop_append,
        framesOf_of_stray_append _ fun b mem => ne_marker_of_cleanBody body b (List.mem_of_mem_drop mem)]
      exact (ih rest _).trans (List.suffix_cons _ _)

/-- Settles O48: a clean body holds no marker, so a start in one finds nothing before the next frame. -/
theorem cleanDevicesAreNeverFalselySynchronized : Obligations.CleanDevicesAreNeverFalselySynchronized :=
  fun _ _ n clean ne => framesOf_drop_suffix clean ne n

end Sys2Proof.Machine
end

section
/-! PROOFS of the family other: runs of many edges (R171, R173, and the duty of the sink, R50). -/

namespace Sys2Proof.Machine

/-! ## Edges that offer and edges that serve -/

theorem Edge.offers_iff (e : Edge) : e.offers = true ↔ e.rst = false ∧ e.offer = true := by
  simp [Edge.offers]

theorem Edge.serves_iff (e : Edge) : e.serves = true ↔ e.rst = false ∧ e.evReady = true := by
  simp [Edge.serves]

/-- An edge that offers, with a byte in the stream, offers that byte. -/
theorem State.rxOffer_of_offers {s : State} {b : Byte} {rx : List Byte} (offers : s.edge.offers = true)
    (head : s.rx = b :: rx) : s.rxOffer = some b := by
  simp [State.rxOffer, ((Edge.offers_iff _).1 offers).2, head]

/-! ## Stray bytes -/

/-- One SKIP for each stray byte (R173). -/
theorem afterEdges_stray {s : State} {stray more : List Byte} {es rest : List Edge} (phase : s.phase = .seeking)
    (rx : s.rx = stray ++ more) (ne : ∀ b ∈ stray, b ≠ Config.marker) (inputs : s.inputs = es ++ rest)
    (length : es.length = stray.length) (offers : ∀ e ∈ es, e.offers = true) :
    ∃ t, afterEdges stray.length s = .next t ∧ SameSequencer s t ∧ SameSlots s t ∧ SameEvents s t ∧ t.rx = more ∧
      t.run.taken = s.run.taken ++ stray ∧ t.inputs = rest := by
  induction stray generalizing s es with
  | nil =>
    obtain rfl : es = [] := List.length_eq_zero_iff.1 length
    exact ⟨s, afterEdges_zero s, ⟨rfl, rfl, rfl, rfl⟩, fun _ => rfl, rfl, rx, (List.append_nil _).symm, inputs⟩
  | cons b stray ih =>
    cases es with
    | nil => cases length
    | cons e es =>
      obtain ⟨offers_e, offers_es⟩ := List.forall_mem_cons.1 offers
      obtain ⟨ne_b, ne⟩ := List.forall_mem_cons.1 ne
      obtain rfl : s.edge = e := s.edge_cons e _ inputs
      have skip : step s = .next (s.rxTake b).advance :=
        step_of_stepCase (.skip b ((Edge.offers_iff _).1 offers_e).1 phase (State.rxOffer_of_offers offers_e rx) ne_b)
      obtain ⟨t, run, sequencer, slots, events, rx', taken, inputs'⟩ := ih (s := (s.rxTake b).advance) (es := es) phase
        (by simp [rx]) ne (by simp [inputs]) (Nat.succ.inj length) offers_es
      refine ⟨t, (afterEdges_succ _ s _ skip).trans run, sequencer, slots, events, rx', ?_, inputs'⟩
      rw [taken, State.advance_taken, State.rxTake_taken, List.append_assoc]
      rfl

/-! ## A frame taken in -/

/-- A byte offered while reading with `cnt` at most 16 joins those of the slots below `cnt` (R166). -/
theorem exists_step_capt {s : State} {b : Byte} (rst : s.edge.rst = false) (phase : s.phase = .readingFrame)
    (offer : s.rxOffer = some b) (lt : s.cnt.val < 17) :
    ∃ u, step s = .next u ∧ u.phase = .readingFrame ∧ u.cnt.val = s.cnt.val + 1 ∧
      u.fb.toList.take (s.cnt.val + 1) = s.fb.toList.take s.cnt.val ++ [b] ∧ u.cause = s.cause ∧ SameEvents s u ∧
      TakesByte b s u ∧ u.inputs = s.inputs.tail :=
  ⟨_, step_of_stepCase (.capt ⟨s.cnt.val, lt⟩ b rst phase offer rfl), phase, rfl, take_toList_set s.fb (by omega) b, rfl,
    rfl, ⟨rfl, rfl⟩, rfl⟩

/-- One CAPT for each body byte but the last. -/
theorem afterEdges_capture {s : State} {bytes more : List Byte} {es rest : List Edge} (phase : s.phase = .readingFrame)
    (fits : s.cnt.val + bytes.length ≤ 17) (rx : s.rx = bytes ++ more) (inputs : s.inputs = es ++ rest)
    (length : es.length = bytes.length) (offers : ∀ e ∈ es, e.offers = true) :
    ∃ t, afterEdges bytes.length s = .next t ∧ t.phase = .readingFrame ∧ t.cnt.val = s.cnt.val + bytes.length ∧
      t.fb.toList.take t.cnt.val = s.fb.toList.take s.cnt.val ++ bytes ∧ t.cause = s.cause ∧ SameEvents s t ∧
      t.run.taken = s.run.taken ++ bytes ∧ t.rx = more ∧ t.inputs = rest := by
  induction bytes generalizing s es with
  | nil =>
    obtain rfl : es = [] := List.length_eq_zero_iff.1 length
    exact ⟨s, afterEdges_zero s, phase, rfl, (List.append_nil _).symm, rfl, rfl, (List.append_nil _).symm, rx, inputs⟩
  | cons b bytes ih =>
    cases es with
    | nil => cases length
    | cons e es =>
      obtain ⟨offers_e, offers_es⟩ := List.forall_mem_cons.1 offers
      obtain rfl : s.edge = e := s.edge_cons e _ inputs
      rw [List.length_cons] at fits
      obtain ⟨u, capt, uPhase, uCnt, uSlots, uCause, uEvents, ⟨uRx, uTaken⟩, uInputs⟩ := exists_step_capt
        ((Edge.offers_iff _).1 offers_e).1 phase (State.rxOffer_of_offers offers_e rx) (by omega)
      obtain ⟨t, run, tPhase, tCnt, tSlots, tCause, tEvents, tTaken, tRx, tInputs⟩ := ih (s := u) (es := es) uPhase
        (by omega) (by rw [uRx, rx]; rfl) (by rw [uInputs, inputs]; rfl) (Nat.succ.inj length) offers_es
      refine ⟨t, (afterEdges_succ _ s u capt).trans run, tPhase, ?_, ?_, tCause.trans uCause, tEvents.trans uEvents, ?_, tRx,
        tInputs⟩
      · rw [tCnt, uCnt, List.length_cons]
        omega
      · rw [tSlots, uCnt, uSlots, List.append_assoc]
        rfl
      · rw [tTaken, uTaken, List.append_assoc]
        rfl

/-- SYNC, seventeen CAPT and CAPTL: a marker and 18 bytes fill the frame buffer (R171). -/
theorem afterEdges_takeFrame {s : State} {body more : List Byte} {es rest : List Edge} (phase : s.phase = .seeking)
    (rx : s.rx = Config.marker :: (body ++ more)) (full : body.length = 18) (inputs : s.inputs = es ++ rest)
    (length : es.length = 19) (offers : ∀ e ∈ es, e.offers = true) :
    ∃ t, afterEdges 19 s = .next t ∧ t.phase = .flush ∧ t.cnt = 0 ∧ t.fb.toList = body ∧ t.cause = s.cause ∧
      SameEvents s t ∧ t.run.taken = s.run.taken ++ Config.marker :: body ∧ t.rx = more ∧ t.inputs = rest := by
  obtain ⟨first, es, rfl⟩ := List.exists_cons_of_length_eq_add_one length
  obtain rfl | ⟨mid, last, rfl⟩ := es.eq_nil_or_concat
  · cases length
  obtain rfl | ⟨front, b, rfl⟩ := body.eq_nil_or_concat
  · cases full
  simp only [List.concat_eq_append, List.append_assoc, List.cons_append, List.nil_append, List.length_append,
    List.length_cons, List.length_nil] at *
  have frontLength : front.length = 17 := by omega
  obtain ⟨offers_first, offers_rest⟩ := List.forall_mem_cons.1 offers
  obtain ⟨offers_mid, offers_last⟩ := List.forall_mem_append.1 offers_rest
  obtain rfl : s.edge = first := s.edge_cons first _ inputs
  have sync := step_of_stepCase (.sync ((Edge.offers_iff _).1 offers_first).1 phase
    (State.rxOffer_of_offers offers_first rx))
  obtain ⟨u, run, uPhase, uCnt, uSlots, uCause, uEvents, uTaken, uRx, uInputs⟩ := afterEdges_capture
    (s := State.advance { s.rxTake Config.marker with phase := .readingFrame, cnt := 0 }) (bytes := front) (es := mid) rfl
    (by simp [frontLength]) (congrArg List.tail rx) (congrArg List.tail inputs) (by omega) offers_mid
  have offers_u : u.edge.offers = true := by
    rw [u.edge_cons last _ uInputs]
    exact offers_last last List.mem_cons_self
  have uCnt : u.cnt = 17 := Fin.ext (uCnt.trans (by rw [frontLength]; rfl))
  have captl := step_of_stepCase (.captl b ((Edge.offers_iff _).1 offers_u).1 uPhase
    (State.rxOffer_of_offers offers_u uRx) uCnt)
  refine ⟨State.advance { (u.rxTake b).setSlot 17 b with cnt := 0, phase := .flush }, ?_, rfl, rfl, ?_, uCause,
    uEvents, ?_, congrArg List.tail uRx, congrArg List.tail uInputs⟩
  · rw [afterEdges_succ 18 s _ sync]
    rw [frontLength] at run
    exact (afterEdges_add 17 1 _ u run).trans (afterEdges_succ 0 u _ captl)
  · rw [uCnt] at uSlots
    exact (toList_set_last u.fb b).trans (congrArg (· ++ [b]) uSlots)
  · refine (congrArg (· ++ [b]) uTaken).trans ?_
    simp

/-! ## A frame dispatched -/

/-- The events left at the index of `s` have been transferred and the frame has ended (R50, R142). -/
def FrameDispatched (last : Edge) (rest : List Edge) (s t : State) : Prop :=
  t.run.events = s.run.events ++ (eventOrder.drop s.eidx.val).map (eventWord s.fb) ∧ SameReceive s t ∧ SameSlots s t ∧
  t.eidx = 0 ∧ t.cnt = s.cnt ∧ t.inputs = rest ∧ (last.stopReq = false → t.phase = .seeking ∧ t.cause = s.cause) ∧
  (last.stopReq = true → t.phase = .halted ∧ t.cause = .stopped)

/-- The twelfth transfer ends the frame. -/
theorem exists_step_lastEvent {s : State} (rst : s.edge.rst = false) (phase : s.phase = .dispatch)
    (ready : s.edge.evReady = true) (index : s.eidx = 11) :
    ∃ t, step s = .next t ∧ FrameDispatched s.edge s.inputs.tail s t := by
  have pending : (eventOrder.drop s.eidx.val).map (eventWord s.fb) = [eventWord s.fb 11] := by rw [index]; rfl
  cases stop : s.edge.stopReq with
  | false =>
    exact ⟨_, step_of_stepCase (.emitLast rst phase ready index stop), by rw [pending]; rfl, ⟨rfl, rfl⟩,
      sameSlots_of_fb _ _ rfl, rfl, rfl, rfl, fun _ => ⟨rfl, rfl⟩, by simp [stop]⟩
  | true =>
    exact ⟨_, step_of_stepCase (.emitStop rst phase ready index stop), by rw [pending]; rfl, ⟨rfl, rfl⟩,
      sameSlots_of_fb _ _ rfl, rfl, rfl, rfl, by simp [stop], fun _ => ⟨rfl, rfl⟩⟩

/-- An edge of a stalled sink leaves the events that are left as they are. -/
theorem FrameDispatched.of_stall {last : Edge} {rest : List Edge} {s t : State}
    (h : FrameDispatched last rest s.advance t) : FrameDispatched last rest s t := h

/-- A transfer before the twelfth takes one event off those that are left. -/
theorem FrameDispatched.of_emit {last : Edge} {rest : List Edge} {s t : State} {next : EventIndex}
    (index : next.val = s.eidx.val + 1)
    (h : FrameDispatched last rest (State.advance { s.evPut (eventWord s.fb s.eidx) with eidx := next }) t) :
    FrameDispatched last rest s t := by
  obtain ⟨events, others⟩ := h
  refine ⟨?_, others⟩
  rw [events_append_pending, ← index]
  exact events

/-- As many servings as events are left end the frame, whatever stalls stand between them. -/
theorem afterEdges_dispatch {s : State} {es : List Edge} {last : Edge} {rest : List Edge} (phase : s.phase = .dispatch)
    (inputs : s.inputs = es ++ last :: rest) (runs : ∀ e ∈ es, e.rst = false) (serves : last.serves = true)
    (left : servings es + s.eidx.val = 11) :
    ∃ t, afterEdges (es.length + 1) s = .next t ∧ FrameDispatched last rest s t := by
  induction es generalizing s with
  | nil =>
    obtain rfl : s.edge = last := s.edge_cons last rest inputs
    obtain ⟨rst, ready⟩ := (Edge.serves_iff _).1 serves
    obtain ⟨t, emit, dispatched⟩ := exists_step_lastEvent rst phase ready (Fin.ext (by simpa [servings] using left))
    rw [inputs] at dispatched
    exact ⟨t, afterEdges_succ 0 s t emit, dispatched⟩
  | cons e es ih =>
    obtain ⟨rst, runs_es⟩ := List.forall_mem_cons.1 runs
    obtain rfl : s.edge = e := s.edge_cons e _ inputs
    cases ready : s.edge.evReady with
    | false =>
      have stalls : servings (s.edge :: es) = servings es := by simp [servings, Edge.serves, ready]
      obtain ⟨t, run, dispatched⟩ := ih (s := s.advance) phase (by simp [inputs]) runs_es (stalls ▸ left)
      exact ⟨t, (afterEdges_succ _ s _ (step_of_stalled rst phase ready)).trans run, dispatched.of_stall⟩
    | true =>
      have serving : servings (s.edge :: es) = servings es + 1 := by simp [servings, Edge.serves, ready, rst]
      have lt : s.eidx.val + 1 < 12 := by omega
      have emit := step_of_stepCase (.emit ⟨s.eidx.val + 1, lt⟩ rst phase ready rfl)
      obtain ⟨t, run, dispatched⟩ := ih
        (s := State.advance { s.evPut (eventWord s.fb s.eidx) with eidx := ⟨s.eidx.val + 1, lt⟩ }) phase (by simp [inputs])
        runs_es (by simp; omega)
      exact ⟨t, (afterEdges_succ _ s _ emit).trans run, dispatched.of_emit rfl⟩

/-! ## The obligations -/

/-- Settles O46: one SKIP for each byte. -/
theorem strayBytesAreSkippedOneByOne : Obligations.StrayBytesAreSkippedOneByOne :=
  fun _ _ _ _ _ phase rx ne inputs length offers => afterEdges_stray phase rx ne inputs length offers

/-- Settles O44: by induction on the edges; a stall changes nothing and a serving takes one event off those that are left. -/
theorem aServedFrameIsDispatchedInFull : Obligations.AServedFrameIsDispatchedInFull :=
  fun _ _ _ _ phase inputs runs serves left => afterEdges_dispatch phase inputs runs serves left

/-- Settles O45: nineteen edges take the frame in, one is FLUSH, and twelve dispatch it. -/
theorem oneFrameTakesThirtyTwoEdges : Obligations.OneFrameTakesThirtyTwoEdges := by
  intro s body more takes drop serves last rest phase rx full inputs takesLength offers dropRst servesLength servesAll
    lastServes lastStop
  obtain ⟨u, intake, uPhase, uCnt, uFb, uCause, uEvents, uTaken, uRx, uInputs⟩ :=
    afterEdges_takeFrame phase rx full inputs takesLength offers
  obtain rfl : u.edge = drop := u.edge_cons drop _ uInputs
  have flush := step_of_stepCase (.flush dropRst uPhase)
  have left : servings serves = 11 := by
    rw [servings, List.countP_eq_length.2 servesAll, servesLength]
  obtain ⟨t, dispatch, tEvents, ⟨tRx, tTaken⟩, tSlots, tEidx, tCnt, tInputs, seeks, -⟩ := afterEdges_dispatch
    (s := State.advance { u.rxDiscard u.edge.drop with phase := .dispatch, eidx := 0 }) (es := serves) rfl
    (congrArg List.tail uInputs) (fun e mem => ((Edge.serves_iff e).1 (servesAll e mem)).1) lastServes (by simp [left])
  obtain ⟨tPhase, tCause⟩ := seeks lastStop
  refine ⟨t, ?_, ?_, tTaken.trans uTaken, ?_, tPhase, tCnt.trans uCnt, tEidx, tCause.trans uCause, ?_, tInputs⟩
  · rw [servesLength] at dispatch
    exact (afterEdges_add 19 13 s u intake).trans ((afterEdges_succ 12 u _ flush).trans dispatch)
  · rw [← uFb, bodyOf_toList, ← uEvents]
    exact tEvents
  · intro i
    rw [tSlots i, ← uFb]
    simp [State.slot]
  · rw [tRx, ← uRx]
    rfl

end Sys2Proof.Machine
end
